-- ==== Sys2Proof/Word.lean ====
section
/-! DEFINITION. The word types of the core: register contents, addresses and instruction codes are bit
vectors, because the manual shifts, masks and wraps them (00_scope.md R6, R8). -/

namespace Sys2Proof

/-- 8 bits (00_scope.md R6). -/
abbrev Byte := BitVec 8

/-- 16 bits: a data halfword, and every instruction code (00_scope.md R6). -/
abbrev Half := BitVec 16

/-- 32 bits: registers and addresses (00_scope.md R6). -/
abbrev Word := BitVec 32

/-- The 4-bit number of a general-purpose register R0 to R15 (10_state.md R20). -/
abbrev Reg := BitVec 4

/-- The 4-bit number of a special register (10_state.md R47). -/
abbrev SReg := BitVec 4

end Sys2Proof
end

