-- ==== Sys2Proof/Syntax.lean ====
section
/-! DEFINITION. The instructions of the C33 ADV core: one constructor for each row of the opcode table, plus
the small name types their operands and the pending prefix record use. -/

namespace Sys2Proof

/-- The ten conditions shared by the `jr` branches and `ext cond` (30_encoding.md R127, R128). -/
inductive Cond where
  | gt | ge | lt | le | ugt | uge | ult | ule | eq | ne
deriving DecidableEq, Repr

/-- The three operations of a postshift (52_ext.md R520). -/
inductive ShiftOp where
  | sra | srl | sll
deriving DecidableEq, Repr

/-- One constructor per row of the opcode table. A `d` operand is bit 8 of a branch code: true is the
delayed form (30_encoding.md R125). The `Low` and `High` shift constructors are the two codes of one
`shift %rd,imm5` (R124); `imm5` is the whole count, and WellFormed ties it to the code. -/
inductive Instr where
  /-- `nop`, code `0000 0000 0000 0000` (R455). -/
  | nop
  /-- `slp`, code `0000 0000 0100 0000` (R492). -/
  | slp
  /-- `halt`, code `0000 0000 1000 0000` (R491). -/
  | halt
  /-- `pushn %rs`, code `0000 0010 0000 ssss` (R375). -/
  | pushn (rs : Reg)
  /-- `popn %rd`, code `0000 0010 0100 dddd` (R376). -/
  | popn (rd : Reg)
  /-- `jpr %rb / jpr.d %rb`, code `0000 001D 1100 bbbb` (R412). -/
  | jpr (d : Bool) (rb : Reg)
  /-- `brk`, code `0000 0100 0000 0000` (R596). -/
  | brk
  /-- `retd`, code `0000 0100 0100 0000` (R597). -/
  | retd
  /-- `int imm2`, code `0000 0100 1000 00ii` (R578). -/
  | int (imm2 : BitVec 2)
  /-- `reti`, code `0000 0100 1100 0000` (R580). -/
  | reti
  /-- `call %rb / call.d %rb`, code `0000 011D 0000 bbbb` (R414). -/
  | callReg (d : Bool) (rb : Reg)
  /-- `ret / ret.d`, code `0000 011D 0100 0000` (R415). -/
  | ret (d : Bool)
  /-- `jp %rb / jp.d %rb`, code `0000 011D 1000 bbbb` (R411). -/
  | jpReg (d : Bool) (rb : Reg)
  /-- `retm`, code `0000 0110 1100 0000` (R591). -/
  | retm
  /-- `push %rs`, code `0000 0000 0001 ssss` (R373). -/
  | push (rs : Reg)
  /-- `pop %rd`, code `0000 0000 0101 dddd` (R374). -/
  | pop (rd : Reg)
  /-- `pushs %ss`, code `0000 0000 1001 SSSS` (R377). -/
  | pushs (ss : SReg)
  /-- `pops %sd`, code `0000 0000 1101 SSSS` (R379). -/
  | pops (sd : SReg)
  /-- `mac.w %rs`, code `0000 0001 0001 ssss` (R316). -/
  | macW (rs : Reg)
  /-- `mac.hw %rs`, code `0000 0001 0101 ssss` (R315). -/
  | macHw (rs : Reg)
  /-- `macclr`, code `0000 0001 1001 0000` (R318). -/
  | macclr
  /-- `ld.cf`, code `0000 0001 1101 0000` (R504). -/
  | ldCf
  /-- `divu.w %rs`, code `0000 0010 0001 ssss` (R293). -/
  | divuW (rs : Reg)
  /-- `div.w %rs`, code `0000 0010 0101 ssss` (R292). -/
  | divW (rs : Reg)
  /-- `repeat %rc`, code `0000 0010 1001 cccc` (R473). -/
  | repeatReg (rc : Reg)
  /-- `repeat imm4`, code `0000 0010 1101 iiii` (R474). -/
  | repeatImm (imm4 : BitVec 4)
  /-- `add %rd,%dp`, code `0000 0011 0101 dddd` (R258). -/
  | addDp (rd : Reg)
  /-- `jrgt sign8 / jrgt.d sign8`, code `0000 100D iiii iiii` (R400). -/
  | jrgt (d : Bool) (sign8 : BitVec 8)
  /-- `jrge sign8 / jrge.d sign8`, code `0000 101D iiii iiii` (R401). -/
  | jrge (d : Bool) (sign8 : BitVec 8)
  /-- `jrlt sign8 / jrlt.d sign8`, code `0000 110D iiii iiii` (R402). -/
  | jrlt (d : Bool) (sign8 : BitVec 8)
  /-- `jrle sign8 / jrle.d sign8`, code `0000 111D iiii iiii` (R403). -/
  | jrle (d : Bool) (sign8 : BitVec 8)
  /-- `jrugt sign8 / jrugt.d sign8`, code `0001 000D iiii iiii` (R404). -/
  | jrugt (d : Bool) (sign8 : BitVec 8)
  /-- `jruge sign8 / jruge.d sign8`, code `0001 001D iiii iiii` (R405). -/
  | jruge (d : Bool) (sign8 : BitVec 8)
  /-- `jrult sign8 / jrult.d sign8`, code `0001 010D iiii iiii` (R406). -/
  | jrult (d : Bool) (sign8 : BitVec 8)
  /-- `jrule sign8 / jrule.d sign8`, code `0001 011D iiii iiii` (R407). -/
  | jrule (d : Bool) (sign8 : BitVec 8)
  /-- `jreq sign8 / jreq.d sign8`, code `0001 100D iiii iiii` (R408). -/
  | jreq (d : Bool) (sign8 : BitVec 8)
  /-- `jrne sign8 / jrne.d sign8`, code `0001 101D iiii iiii` (R409). -/
  | jrne (d : Bool) (sign8 : BitVec 8)
  /-- `call sign8 / call.d sign8`, code `0001 110D iiii iiii` (R413). -/
  | callRel (d : Bool) (sign8 : BitVec 8)
  /-- `jp sign8 / jp.d sign8`, code `0001 111D iiii iiii` (R410). -/
  | jpRel (d : Bool) (sign8 : BitVec 8)
  /-- `ld.b %rd,[%rb]`, code `0010 0000 bbbb dddd` (R180). -/
  | ldbInd (rd : Reg) (rb : Reg)
  /-- `ld.b %rd,[%rb]+`, code `0010 0001 bbbb dddd` (R181). -/
  | ldbInc (rd : Reg) (rb : Reg)
  /-- `ld.ub %rd,[%rb]`, code `0010 0100 bbbb dddd` (R184). -/
  | ldubInd (rd : Reg) (rb : Reg)
  /-- `ld.ub %rd,[%rb]+`, code `0010 0101 bbbb dddd` (R185). -/
  | ldubInc (rd : Reg) (rb : Reg)
  /-- `ld.h %rd,[%rb]`, code `0010 1000 bbbb dddd` (R188). -/
  | ldhInd (rd : Reg) (rb : Reg)
  /-- `ld.h %rd,[%rb]+`, code `0010 1001 bbbb dddd` (R189). -/
  | ldhInc (rd : Reg) (rb : Reg)
  /-- `ld.uh %rd,[%rb]`, code `0010 1100 bbbb dddd` (R192). -/
  | lduhInd (rd : Reg) (rb : Reg)
  /-- `ld.uh %rd,[%rb]+`, code `0010 1101 bbbb dddd` (R193). -/
  | lduhInc (rd : Reg) (rb : Reg)
  /-- `ld.w %rd,[%rb]`, code `0011 0000 bbbb dddd` (R196). -/
  | ldwInd (rd : Reg) (rb : Reg)
  /-- `ld.w %rd,[%rb]+`, code `0011 0001 bbbb dddd` (R197). -/
  | ldwInc (rd : Reg) (rb : Reg)
  /-- `ld.b [%rb],%rs`, code `0011 0100 bbbb ssss` (R200). -/
  | stbInd (rb : Reg) (rs : Reg)
  /-- `ld.b [%rb]+,%rs`, code `0011 0101 bbbb ssss` (R201). -/
  | stbInc (rb : Reg) (rs : Reg)
  /-- `ld.h [%rb],%rs`, code `0011 1000 bbbb ssss` (R204). -/
  | sthInd (rb : Reg) (rs : Reg)
  /-- `ld.h [%rb]+,%rs`, code `0011 1001 bbbb ssss` (R205). -/
  | sthInc (rb : Reg) (rs : Reg)
  /-- `ld.w [%rb],%rs`, code `0011 1100 bbbb ssss` (R208). -/
  | stwInd (rb : Reg) (rs : Reg)
  /-- `ld.w [%rb]+,%rs`, code `0011 1101 bbbb ssss` (R209). -/
  | stwInc (rb : Reg) (rs : Reg)
  /-- `add %rd,%rs`, code `0010 0010 ssss dddd` (R255). -/
  | addReg (rd : Reg) (rs : Reg)
  /-- `sub %rd,%rs`, code `0010 0110 ssss dddd` (R260). -/
  | subReg (rd : Reg) (rs : Reg)
  /-- `cmp %rd,%rs`, code `0010 1010 ssss dddd` (R264). -/
  | cmpReg (rd : Reg) (rs : Reg)
  /-- `ld.w %rd,%rs`, code `0010 1110 ssss dddd` (R174). -/
  | ldwReg (rd : Reg) (rs : Reg)
  /-- `and %rd,%rs`, code `0011 0010 ssss dddd` (R234). -/
  | andReg (rd : Reg) (rs : Reg)
  /-- `or %rd,%rs`, code `0011 0110 ssss dddd` (R236). -/
  | orReg (rd : Reg) (rs : Reg)
  /-- `xor %rd,%rs`, code `0011 1010 ssss dddd` (R238). -/
  | xorReg (rd : Reg) (rs : Reg)
  /-- `not %rd,%rs`, code `0011 1110 ssss dddd` (R240). -/
  | notReg (rd : Reg) (rs : Reg)
  /-- `srl %rd,imm5 (imm5 = 16 to 31)`, code `0010 0011 iiii dddd` (R337). -/
  | srlHigh (rd : Reg) (imm5 : BitVec 5)
  /-- `sll %rd,imm5 (imm5 = 16 to 31)`, code `0010 0111 iiii dddd` (R339). -/
  | sllHigh (rd : Reg) (imm5 : BitVec 5)
  /-- `sra %rd,imm5 (imm5 = 16 to 31)`, code `0010 1011 iiii dddd` (R341). -/
  | sraHigh (rd : Reg) (imm5 : BitVec 5)
  /-- `sla %rd,imm5 (imm5 = 16 to 31)`, code `0010 1111 iiii dddd` (R343). -/
  | slaHigh (rd : Reg) (imm5 : BitVec 5)
  /-- `rr %rd,imm5 (imm5 = 16 to 31)`, code `0011 0011 iiii dddd` (R345). -/
  | rrHigh (rd : Reg) (imm5 : BitVec 5)
  /-- `rl %rd,imm5 (imm5 = 16 to 31)`, code `0011 0111 iiii dddd` (R347). -/
  | rlHigh (rd : Reg) (imm5 : BitVec 5)
  /-- `ext sra,imm2`, code `0011 1011 0000 01mm` (R543). -/
  | extSra (imm2 : BitVec 2)
  /-- `ext srl,imm2`, code `0011 1011 0000 10mm` (R543). -/
  | extSrl (imm2 : BitVec 2)
  /-- `ext sll,imm2`, code `0011 1011 0000 11mm` (R543). -/
  | extSll (imm2 : BitVec 2)
  /-- `ext gt`, code `0011 1011 0100 0000` (R544). -/
  | extGt
  /-- `ext ge`, code `0011 1011 0101 0000` (R544). -/
  | extGe
  /-- `ext lt`, code `0011 1011 0110 0000` (R544). -/
  | extLt
  /-- `ext le`, code `0011 1011 0111 0000` (R544). -/
  | extLe
  /-- `ext ugt`, code `0011 1011 1000 0000` (R544). -/
  | extUgt
  /-- `ext uge`, code `0011 1011 1001 0000` (R544). -/
  | extUge
  /-- `ext ult`, code `0011 1011 1010 0000` (R544). -/
  | extUlt
  /-- `ext ule`, code `0011 1011 1011 0000` (R544). -/
  | extUle
  /-- `ext eq`, code `0011 1011 1100 0000` (R544). -/
  | extEq
  /-- `ext ne`, code `0011 1011 1101 0000` (R544). -/
  | extNe
  /-- `ext %rs`, code `0011 1111 ssss 0000` (R541). -/
  | extReg (rs : Reg)
  /-- `ext %rs,sra,imm2`, code `0011 1111 ssss 01mm` (R542). -/
  | extRegSra (rs : Reg) (imm2 : BitVec 2)
  /-- `ext %rs,srl,imm2`, code `0011 1111 ssss 10mm` (R542). -/
  | extRegSrl (rs : Reg) (imm2 : BitVec 2)
  /-- `ext %rs,sll,imm2`, code `0011 1111 ssss 11mm` (R542). -/
  | extRegSll (rs : Reg) (imm2 : BitVec 2)
  /-- `ld.b %rd,[%sp+imm6]`, code `0100 00ii iiii dddd` (R182). -/
  | ldbSp (rd : Reg) (imm6 : BitVec 6)
  /-- `ld.ub %rd,[%sp+imm6]`, code `0100 01ii iiii dddd` (R186). -/
  | ldubSp (rd : Reg) (imm6 : BitVec 6)
  /-- `ld.h %rd,[%sp+imm6]`, code `0100 10ii iiii dddd` (R190). -/
  | ldhSp (rd : Reg) (imm6 : BitVec 6)
  /-- `ld.uh %rd,[%sp+imm6]`, code `0100 11ii iiii dddd` (R194). -/
  | lduhSp (rd : Reg) (imm6 : BitVec 6)
  /-- `ld.w %rd,[%sp+imm6]`, code `0101 00ii iiii dddd` (R198). -/
  | ldwSp (rd : Reg) (imm6 : BitVec 6)
  /-- `ld.b [%sp+imm6],%rs`, code `0101 01ii iiii ssss` (R202). -/
  | stbSp (imm6 : BitVec 6) (rs : Reg)
  /-- `ld.h [%sp+imm6],%rs`, code `0101 10ii iiii ssss` (R206). -/
  | sthSp (imm6 : BitVec 6) (rs : Reg)
  /-- `ld.w [%sp+imm6],%rs`, code `0101 11ii iiii ssss` (R210). -/
  | stwSp (imm6 : BitVec 6) (rs : Reg)
  /-- `ld.b %rd,[%dp+imm6]`, code `1110 00ii iiii dddd` (R183). -/
  | ldbDp (rd : Reg) (imm6 : BitVec 6)
  /-- `ld.ub %rd,[%dp+imm6]`, code `1110 01ii iiii dddd` (R187). -/
  | ldubDp (rd : Reg) (imm6 : BitVec 6)
  /-- `ld.h %rd,[%dp+imm6]`, code `1110 10ii iiii dddd` (R191). -/
  | ldhDp (rd : Reg) (imm6 : BitVec 6)
  /-- `ld.uh %rd,[%dp+imm6]`, code `1110 11ii iiii dddd` (R195). -/
  | lduhDp (rd : Reg) (imm6 : BitVec 6)
  /-- `ld.w %rd,[%dp+imm6]`, code `1111 00ii iiii dddd` (R199). -/
  | ldwDp (rd : Reg) (imm6 : BitVec 6)
  /-- `ld.b [%dp+imm6],%rs`, code `1111 01ii iiii ssss` (R203). -/
  | stbDp (imm6 : BitVec 6) (rs : Reg)
  /-- `ld.h [%dp+imm6],%rs`, code `1111 10ii iiii ssss` (R207). -/
  | sthDp (imm6 : BitVec 6) (rs : Reg)
  /-- `ld.w [%dp+imm6],%rs`, code `1111 11ii iiii ssss` (R211). -/
  | stwDp (imm6 : BitVec 6) (rs : Reg)
  /-- `add %rd,imm6`, code `0110 00ii iiii dddd` (R256). -/
  | addImm (rd : Reg) (imm6 : BitVec 6)
  /-- `sub %rd,imm6`, code `0110 01ii iiii dddd` (R261). -/
  | subImm (rd : Reg) (imm6 : BitVec 6)
  /-- `cmp %rd,sign6`, code `0110 10ii iiii dddd` (R265). -/
  | cmpImm (rd : Reg) (sign6 : BitVec 6)
  /-- `ld.w %rd,sign6`, code `0110 11ii iiii dddd` (R175). -/
  | ldwImm (rd : Reg) (sign6 : BitVec 6)
  /-- `and %rd,sign6`, code `0111 00ii iiii dddd` (R235). -/
  | andImm (rd : Reg) (sign6 : BitVec 6)
  /-- `or %rd,sign6`, code `0111 01ii iiii dddd` (R237). -/
  | orImm (rd : Reg) (sign6 : BitVec 6)
  /-- `xor %rd,sign6`, code `0111 10ii iiii dddd` (R239). -/
  | xorImm (rd : Reg) (sign6 : BitVec 6)
  /-- `not %rd,sign6`, code `0111 11ii iiii dddd` (R241). -/
  | notImm (rd : Reg) (sign6 : BitVec 6)
  /-- `add %sp,imm10`, code `1000 00ii iiii iiii` (R257). -/
  | addSp (imm10 : BitVec 10)
  /-- `sub %sp,imm10`, code `1000 01ii iiii iiii` (R262). -/
  | subSp (imm10 : BitVec 10)
  /-- `srl %rd,imm5 (imm5 = 0 to 15)`, code `1000 1000 iiii dddd` (R337). -/
  | srlLow (rd : Reg) (imm5 : BitVec 5)
  /-- `srl %rd,%rs`, code `1000 1001 ssss dddd` (R336). -/
  | srlReg (rd : Reg) (rs : Reg)
  /-- `sll %rd,imm5 (imm5 = 0 to 15)`, code `1000 1100 iiii dddd` (R339). -/
  | sllLow (rd : Reg) (imm5 : BitVec 5)
  /-- `sll %rd,%rs`, code `1000 1101 ssss dddd` (R338). -/
  | sllReg (rd : Reg) (rs : Reg)
  /-- `sra %rd,imm5 (imm5 = 0 to 15)`, code `1001 0000 iiii dddd` (R341). -/
  | sraLow (rd : Reg) (imm5 : BitVec 5)
  /-- `sra %rd,%rs`, code `1001 0001 ssss dddd` (R340). -/
  | sraReg (rd : Reg) (rs : Reg)
  /-- `sla %rd,imm5 (imm5 = 0 to 15)`, code `1001 0100 iiii dddd` (R343). -/
  | slaLow (rd : Reg) (imm5 : BitVec 5)
  /-- `sla %rd,%rs`, code `1001 0101 ssss dddd` (R342). -/
  | slaReg (rd : Reg) (rs : Reg)
  /-- `rr %rd,imm5 (imm5 = 0 to 15)`, code `1001 1000 iiii dddd` (R345). -/
  | rrLow (rd : Reg) (imm5 : BitVec 5)
  /-- `rr %rd,%rs`, code `1001 1001 ssss dddd` (R344). -/
  | rrReg (rd : Reg) (rs : Reg)
  /-- `rl %rd,imm5 (imm5 = 0 to 15)`, code `1001 1100 iiii dddd` (R347). -/
  | rlLow (rd : Reg) (imm5 : BitVec 5)
  /-- `rl %rd,%rs`, code `1001 1101 ssss dddd` (R346). -/
  | rlReg (rd : Reg) (rs : Reg)
  /-- `scan0 %rd,%rs`, code `1000 1010 ssss dddd` (R442). -/
  | scan0 (rd : Reg) (rs : Reg)
  /-- `scan1 %rd,%rs`, code `1000 1110 ssss dddd` (R443). -/
  | scan1 (rd : Reg) (rs : Reg)
  /-- `swap %rd,%rs`, code `1001 0010 ssss dddd` (R444). -/
  | swap (rd : Reg) (rs : Reg)
  /-- `mirror %rd,%rs`, code `1001 0110 ssss dddd` (R446). -/
  | mirror (rd : Reg) (rs : Reg)
  /-- `swaph %rd,%rs`, code `1001 1010 ssss dddd` (R445). -/
  | swaph (rd : Reg) (rs : Reg)
  /-- `sat.b %rd,%rs`, code `1001 1110 ssss dddd` (R448). -/
  | satB (rd : Reg) (rs : Reg)
  /-- `div0s %rs`, code `1000 1011 ssss 0000` (R287). -/
  | div0s (rs : Reg)
  /-- `div0u %rs`, code `1000 1111 ssss 0000` (R288). -/
  | div0u (rs : Reg)
  /-- `div1 %rs`, code `1001 0011 ssss 0000` (R289). -/
  | div1 (rs : Reg)
  /-- `div2s %rs`, code `1001 0111 ssss 0000` (R290). -/
  | div2s (rs : Reg)
  /-- `div3s`, code `1001 1011 0000 0000` (R291). -/
  | div3s
  /-- `sat.ub %rd,%rs`, code `1001 1111 ssss dddd` (R449). -/
  | satUb (rd : Reg) (rs : Reg)
  /-- `ld.w %sd,%rs`, code `1010 0000 ssss SSSS` (R177). -/
  | ldwSd (sd : SReg) (rs : Reg)
  /-- `ld.b %rd,%rs`, code `1010 0001 ssss dddd` (R170). -/
  | ldbReg (rd : Reg) (rs : Reg)
  /-- `mlt.h %rd,%rs`, code `1010 0010 ssss dddd` (R282). -/
  | mltH (rd : Reg) (rs : Reg)
  /-- `mlt.hw %rd,%rs`, code `1010 0011 ssss dddd` (R284). -/
  | mltHw (rd : Reg) (rs : Reg)
  /-- `ld.w %rd,%ss`, code `1010 0100 SSSS dddd` (R176). -/
  | ldwSs (rd : Reg) (ss : SReg)
  /-- `ld.ub %rd,%rs`, code `1010 0101 ssss dddd` (R171). -/
  | ldubReg (rd : Reg) (rs : Reg)
  /-- `mltu.h %rd,%rs`, code `1010 0110 ssss dddd` (R283). -/
  | mltuH (rd : Reg) (rs : Reg)
  /-- `mac1.h %rd,%rs`, code `1010 0111 ssss dddd` (R319). -/
  | mac1H (rd : Reg) (rs : Reg)
  /-- `btst [%rb],imm3`, code `1010 1000 bbbb 0iii` (R364). -/
  | btst (rb : Reg) (imm3 : BitVec 3)
  /-- `ld.h %rd,%rs`, code `1010 1001 ssss dddd` (R172). -/
  | ldhReg (rd : Reg) (rs : Reg)
  /-- `mlt.w %rd,%rs`, code `1010 1010 ssss dddd` (R285). -/
  | mltW (rd : Reg) (rs : Reg)
  /-- `mac1.hw %rd,%rs`, code `1010 1011 ssss dddd` (R320). -/
  | mac1Hw (rd : Reg) (rs : Reg)
  /-- `bclr [%rb],imm3`, code `1010 1100 bbbb 0iii` (R365). -/
  | bclr (rb : Reg) (imm3 : BitVec 3)
  /-- `ld.uh %rd,%rs`, code `1010 1101 ssss dddd` (R173). -/
  | lduhReg (rd : Reg) (rs : Reg)
  /-- `mltu.w %rd,%rs`, code `1010 1110 ssss dddd` (R286). -/
  | mltuW (rd : Reg) (rs : Reg)
  /-- `bset [%rb],imm3`, code `1011 0000 bbbb 0iii` (R366). -/
  | bset (rb : Reg) (imm3 : BitVec 3)
  /-- `ld.c %rd,imm4`, code `1011 0001 iiii dddd` (R501). -/
  | ldcRead (rd : Reg) (imm4 : BitVec 4)
  /-- `mac %rs`, code `1011 0010 ssss 0000` (R314). -/
  | mac (rs : Reg)
  /-- `mac1.w %rd,%rs`, code `1011 0011 ssss dddd` (R321). -/
  | mac1W (rd : Reg) (rs : Reg)
  /-- `bnot [%rb],imm3`, code `1011 0100 bbbb 0iii` (R367). -/
  | bnot (rb : Reg) (imm3 : BitVec 3)
  /-- `ld.c imm4,%rs`, code `1011 0101 iiii ssss` (R502). -/
  | ldcWrite (imm4 : BitVec 4) (rs : Reg)
  /-- `sat.h %rd,%rs`, code `1011 0110 ssss dddd` (R450). -/
  | satH (rd : Reg) (rs : Reg)
  /-- `sat.uh %rd,%rs`, code `1011 0111 ssss dddd` (R451). -/
  | satUh (rd : Reg) (rs : Reg)
  /-- `adc %rd,%rs`, code `1011 1000 ssss dddd` (R259). -/
  | adc (rd : Reg) (rs : Reg)
  /-- `loop %rc,%ra`, code `1011 1001 aaaa cccc` (R461). -/
  | loopReg (rc : Reg) (ra : Reg)
  /-- `loop %rc,imm4`, code `1011 1010 iiii cccc` (R462). -/
  | loopRegImm (rc : Reg) (imm4 : BitVec 4)
  /-- `loop imm4(count),imm4(addr)`, code `1011 1011 aaaa nnnn` (R463). -/
  | loopImm (count : BitVec 4) (addr : BitVec 4)
  /-- `sbc %rd,%rs`, code `1011 1100 ssss dddd` (R263). -/
  | sbc (rd : Reg) (rs : Reg)
  /-- `sat.w %rd,%rs`, code `1011 1101 ssss dddd` (R452). -/
  | satW (rd : Reg) (rs : Reg)
  /-- `sat.uw %rd,%rs`, code `1011 1110 ssss dddd` (R453). -/
  | satUw (rd : Reg) (rs : Reg)
  /-- `do.c imm6`, code `1011 1111 00ii iiii` (R503). -/
  | doC (imm6 : BitVec 6)
  /-- `psrset imm5`, code `1011 1111 010i iiii` (R496). -/
  | psrset (imm5 : BitVec 5)
  /-- `psrclr imm5`, code `1011 1111 100i iiii` (R497). -/
  | psrclr (imm5 : BitVec 5)
  /-- `ext imm13`, code `110i iiii iiii iiii` (R540). -/
  | extImm (imm13 : BitVec 13)
deriving DecidableEq, Repr

end Sys2Proof
end

