-- ==== Sys2Proof/WellFormed.lean ====
section
/-! DEFINITION. The one side condition an instruction term carries beyond its operand widths: the count of
an immediate shift must be one its code can hold. -/

namespace Sys2Proof

/-- The count of an immediate shift code has bit 4 clear in the class 4 code (count 0 to 15) and set in the
class 1 code (count 16 to 31): 30_encoding.md R124. Every other operand is exactly as wide as its field. -/
def Instr.wellFormed : Instr → Bool
  | .srlHigh _ imm5 => 16 ≤ imm5.toNat
  | .sllHigh _ imm5 => 16 ≤ imm5.toNat
  | .sraHigh _ imm5 => 16 ≤ imm5.toNat
  | .slaHigh _ imm5 => 16 ≤ imm5.toNat
  | .rrHigh _ imm5 => 16 ≤ imm5.toNat
  | .rlHigh _ imm5 => 16 ≤ imm5.toNat
  | .srlLow _ imm5 => imm5.toNat < 16
  | .sllLow _ imm5 => imm5.toNat < 16
  | .sraLow _ imm5 => imm5.toNat < 16
  | .slaLow _ imm5 => imm5.toNat < 16
  | .rrLow _ imm5 => imm5.toNat < 16
  | .rlLow _ imm5 => imm5.toNat < 16
  | _ => true

/-- An instruction that some code encodes. -/
abbrev Instr.WellFormed (i : Instr) : Prop := i.wellFormed = true

end Sys2Proof
end

