-- ==== Sys2Proof/Decode.lean ====
section
/-! DEFINITION. The decoder: one 16-bit code to an instruction (30_encoding.md R120 to R137), by the appendix's
classes; then the encoder, written from the same code rows. A code outside the tables is no instruction
(R134, R135): filler bits are compared too. -/

namespace Sys2Proof

/-- Why a list of bytes is no instruction. -/
inductive DecodeError where
  /-- fewer than two bytes: every code is one halfword (30_encoding.md R120). -/
  | truncated
  /-- a code in no table of the manual (30_encoding.md R134). -/
  | unassigned (code : Half)
deriving DecidableEq, Repr

/-- Bits 7:4 of a code (30_encoding.md R122). -/
def fieldX (w : Half) : BitVec 4 := w.extractLsb' 4 4

/-- Bits 3:0 of a code (30_encoding.md R122). -/
def fieldY (w : Half) : BitVec 4 := w.extractLsb' 0 4

/-- Bits 15:8, the high byte the opcode maps are indexed by (30_encoding.md R127, R128, R131, R132). -/
def fieldHigh (w : Half) : BitVec 8 := w.extractLsb' 8 8

/-- Bits 9:4, the imm6 or sign6 field of classes 2, 3 and 7 (30_encoding.md R123). -/
def fieldImm6 (w : Half) : BitVec 6 := w.extractLsb' 4 6

/-- Bits 12:10, op1 of classes 2, 3, 4 and 7 (30_encoding.md R121). -/
def fieldOp1 (w : Half) : BitVec 3 := w.extractLsb' 10 3

/-- Bit 8, the delayed form of a branch (30_encoding.md R125). -/
def fieldD (w : Half) : Bool := w.getLsbD 8

/-- A code whose last field must be 0 (the filler zeros of 30_encoding.md R135). -/
def whenZero (y : BitVec 4) (i : Instr) : Option Instr := if y = 0#4 then some i else none

/-- Class 0 with bits 12:9 up to 0011: the table of 30_encoding.md R126, by bits 15:4. -/
def decodeClass0Low (w : Half) : Option Instr :=
  let r := fieldY w
  match w.extractLsb' 4 12 with
  | 0x000#12 => whenZero r .nop
  | 0x004#12 => whenZero r .slp
  | 0x008#12 => whenZero r .halt
  | 0x001#12 => some (.push r)
  | 0x005#12 => some (.pop r)
  | 0x009#12 => some (.pushs r)
  | 0x00D#12 => some (.pops r)
  | 0x011#12 => some (.macW r)
  | 0x015#12 => some (.macHw r)
  | 0x019#12 => whenZero r .macclr
  | 0x01D#12 => whenZero r .ldCf
  | 0x020#12 => some (.pushn r)
  | 0x021#12 => some (.divuW r)
  | 0x024#12 => some (.popn r)
  | 0x025#12 => some (.divW r)
  | 0x029#12 => some (.repeatReg r)
  | 0x02C#12 => some (.jpr false r)
  | 0x02D#12 => some (.repeatImm r)
  | 0x035#12 => some (.addDp r)
  | 0x03C#12 => some (.jpr true r)
  | 0x040#12 => whenZero r .brk
  | 0x044#12 => whenZero r .retd
  | 0x048#12 => if r.extractLsb' 2 2 = 0#2 then some (.int (r.extractLsb' 0 2)) else none
  | 0x04C#12 => whenZero r .reti
  | 0x060#12 => some (.callReg false r)
  | 0x064#12 => whenZero r (.ret false)
  | 0x068#12 => some (.jpReg false r)
  | 0x06C#12 => whenZero r .retm
  | 0x070#12 => some (.callReg true r)
  | 0x074#12 => whenZero r (.ret true)
  | 0x078#12 => some (.jpReg true r)
  | _ => none

/-- Class 0 with bits 12:9 from 0100: the relative branches of 30_encoding.md R127. Below, R126. -/
def decodeClass0 (w : Half) : Option Instr :=
  let d := fieldD w
  let sign8 := w.extractLsb' 0 8
  match w.extractLsb' 9 4 with
  | 0b0100#4 => some (.jrgt d sign8)
  | 0b0101#4 => some (.jrge d sign8)
  | 0b0110#4 => some (.jrlt d sign8)
  | 0b0111#4 => some (.jrle d sign8)
  | 0b1000#4 => some (.jrugt d sign8)
  | 0b1001#4 => some (.jruge d sign8)
  | 0b1010#4 => some (.jrult d sign8)
  | 0b1011#4 => some (.jrule d sign8)
  | 0b1100#4 => some (.jreq d sign8)
  | 0b1101#4 => some (.jrne d sign8)
  | 0b1110#4 => some (.callRel d sign8)
  | 0b1111#4 => some (.jpRel d sign8)
  | _ => decodeClass0Low w

/-- The prefixes under high byte 0x3B: `ext op,imm2` with x = 0000 and `ext cond` with y = 0000
(30_encoding.md R128). -/
def decodeExtOp (x y : BitVec 4) : Option Instr :=
  let imm2 := y.extractLsb' 0 2
  match x with
  | 0b0000#4 =>
    match y.extractLsb' 2 2 with
    | 0b01#2 => some (.extSra imm2)
    | 0b10#2 => some (.extSrl imm2)
    | 0b11#2 => some (.extSll imm2)
    | _ => none
  | 0b0100#4 => whenZero y .extGt
  | 0b0101#4 => whenZero y .extGe
  | 0b0110#4 => whenZero y .extLt
  | 0b0111#4 => whenZero y .extLe
  | 0b1000#4 => whenZero y .extUgt
  | 0b1001#4 => whenZero y .extUge
  | 0b1010#4 => whenZero y .extUlt
  | 0b1011#4 => whenZero y .extUle
  | 0b1100#4 => whenZero y .extEq
  | 0b1101#4 => whenZero y .extNe
  | _ => none

/-- The prefixes under high byte 0x3F: `ext %rs` and `ext %rs,op,imm2` (30_encoding.md R128). -/
def decodeExtReg (x y : BitVec 4) : Option Instr :=
  let imm2 := y.extractLsb' 0 2
  match y.extractLsb' 2 2 with
  | 0b01#2 => some (.extRegSra x imm2)
  | 0b10#2 => some (.extRegSrl x imm2)
  | 0b11#2 => some (.extRegSll x imm2)
  | _ => whenZero y (.extReg x)

/-- Class 1: the table of 30_encoding.md R128, by the high byte. -/
def decodeClass1 (w : Half) : Option Instr :=
  let x := fieldX w
  let y := fieldY w
  match fieldHigh w with
  | 0x20#8 => some (.ldbInd y x)
  | 0x21#8 => some (.ldbInc y x)
  | 0x22#8 => some (.addReg y x)
  | 0x23#8 => some (.srlHigh y (1#1 ++ x))
  | 0x24#8 => some (.ldubInd y x)
  | 0x25#8 => some (.ldubInc y x)
  | 0x26#8 => some (.subReg y x)
  | 0x27#8 => some (.sllHigh y (1#1 ++ x))
  | 0x28#8 => some (.ldhInd y x)
  | 0x29#8 => some (.ldhInc y x)
  | 0x2A#8 => some (.cmpReg y x)
  | 0x2B#8 => some (.sraHigh y (1#1 ++ x))
  | 0x2C#8 => some (.lduhInd y x)
  | 0x2D#8 => some (.lduhInc y x)
  | 0x2E#8 => some (.ldwReg y x)
  | 0x2F#8 => some (.slaHigh y (1#1 ++ x))
  | 0x30#8 => some (.ldwInd y x)
  | 0x31#8 => some (.ldwInc y x)
  | 0x32#8 => some (.andReg y x)
  | 0x33#8 => some (.rrHigh y (1#1 ++ x))
  | 0x34#8 => some (.stbInd x y)
  | 0x35#8 => some (.stbInc x y)
  | 0x36#8 => some (.orReg y x)
  | 0x37#8 => some (.rlHigh y (1#1 ++ x))
  | 0x38#8 => some (.sthInd x y)
  | 0x39#8 => some (.sthInc x y)
  | 0x3A#8 => some (.xorReg y x)
  | 0x3C#8 => some (.stwInd x y)
  | 0x3D#8 => some (.stwInc x y)
  | 0x3E#8 => some (.notReg y x)
  | 0x3B#8 => decodeExtOp x y
  | 0x3F#8 => decodeExtReg x y
  | _ => none

/-- Class 2, `[%sp+imm6]`: 30_encoding.md R129. -/
def decodeClass2 (w : Half) : Option Instr :=
  let imm6 := fieldImm6 w
  let r := fieldY w
  match fieldOp1 w with
  | 0b000#3 => some (.ldbSp r imm6)
  | 0b001#3 => some (.ldubSp r imm6)
  | 0b010#3 => some (.ldhSp r imm6)
  | 0b011#3 => some (.lduhSp r imm6)
  | 0b100#3 => some (.ldwSp r imm6)
  | 0b101#3 => some (.stbSp imm6 r)
  | 0b110#3 => some (.sthSp imm6 r)
  | 0b111#3 => some (.stwSp imm6 r)

/-- Class 3: 30_encoding.md R130. -/
def decodeClass3 (w : Half) : Option Instr :=
  let imm6 := fieldImm6 w
  let r := fieldY w
  match fieldOp1 w with
  | 0b000#3 => some (.addImm r imm6)
  | 0b001#3 => some (.subImm r imm6)
  | 0b010#3 => some (.cmpImm r imm6)
  | 0b011#3 => some (.ldwImm r imm6)
  | 0b100#3 => some (.andImm r imm6)
  | 0b101#3 => some (.orImm r imm6)
  | 0b110#3 => some (.xorImm r imm6)
  | 0b111#3 => some (.notImm r imm6)

/-- Class 4: 30_encoding.md R131. -/
def decodeClass4 (w : Half) : Option Instr :=
  match fieldOp1 w with
  | 0b000#3 => some (.addSp (w.extractLsb' 0 10))
  | 0b001#3 => some (.subSp (w.extractLsb' 0 10))
  | _ =>
  let x := fieldX w
  let y := fieldY w
  match fieldHigh w with
  | 0x88#8 => some (.srlLow y (0#1 ++ x))
  | 0x89#8 => some (.srlReg y x)
  | 0x8A#8 => some (.scan0 y x)
  | 0x8B#8 => whenZero y (.div0s x)
  | 0x8C#8 => some (.sllLow y (0#1 ++ x))
  | 0x8D#8 => some (.sllReg y x)
  | 0x8E#8 => some (.scan1 y x)
  | 0x8F#8 => whenZero y (.div0u x)
  | 0x90#8 => some (.sraLow y (0#1 ++ x))
  | 0x91#8 => some (.sraReg y x)
  | 0x92#8 => some (.swap y x)
  | 0x93#8 => whenZero y (.div1 x)
  | 0x94#8 => some (.slaLow y (0#1 ++ x))
  | 0x95#8 => some (.slaReg y x)
  | 0x96#8 => some (.mirror y x)
  | 0x97#8 => whenZero y (.div2s x)
  | 0x98#8 => some (.rrLow y (0#1 ++ x))
  | 0x99#8 => some (.rrReg y x)
  | 0x9A#8 => some (.swaph y x)
  | 0x9B#8 => if x = 0#4 then whenZero y .div3s else none
  | 0x9C#8 => some (.rlLow y (0#1 ++ x))
  | 0x9D#8 => some (.rlReg y x)
  | 0x9E#8 => some (.satB y x)
  | 0x9F#8 => some (.satUb y x)
  | _ => none

/-- Class 5 with bits 12:8 = 11111: `do.c`, `psrset`, `psrclr` by bits 7:6 (30_encoding.md R132). -/
def decodeSystem (w : Half) : Option Instr :=
  match w.extractLsb' 6 2 with
  | 0b00#2 => some (.doC (w.extractLsb' 0 6))
  | 0b01#2 => if w.getLsbD 5 then none else some (.psrset (w.extractLsb' 0 5))
  | 0b10#2 => if w.getLsbD 5 then none else some (.psrclr (w.extractLsb' 0 5))
  | _ => none

/-- Class 5: 30_encoding.md R132, by the high byte. -/
def decodeClass5 (w : Half) : Option Instr :=
  let x := fieldX w
  let y := fieldY w
  match fieldHigh w with
  | 0xA0#8 => some (.ldwSd y x)
  | 0xA1#8 => some (.ldbReg y x)
  | 0xA2#8 => some (.mltH y x)
  | 0xA3#8 => some (.mltHw y x)
  | 0xA4#8 => some (.ldwSs y x)
  | 0xA5#8 => some (.ldubReg y x)
  | 0xA6#8 => some (.mltuH y x)
  | 0xA7#8 => some (.mac1H y x)
  | 0xA8#8 => if y.getLsbD 3 then none else some (.btst x (y.extractLsb' 0 3))
  | 0xA9#8 => some (.ldhReg y x)
  | 0xAA#8 => some (.mltW y x)
  | 0xAB#8 => some (.mac1Hw y x)
  | 0xAC#8 => if y.getLsbD 3 then none else some (.bclr x (y.extractLsb' 0 3))
  | 0xAD#8 => some (.lduhReg y x)
  | 0xAE#8 => some (.mltuW y x)
  | 0xB0#8 => if y.getLsbD 3 then none else some (.bset x (y.extractLsb' 0 3))
  | 0xB1#8 => some (.ldcRead y x)
  | 0xB2#8 => whenZero y (.mac x)
  | 0xB3#8 => some (.mac1W y x)
  | 0xB4#8 => if y.getLsbD 3 then none else some (.bnot x (y.extractLsb' 0 3))
  | 0xB5#8 => some (.ldcWrite x y)
  | 0xB6#8 => some (.satH y x)
  | 0xB7#8 => some (.satUh y x)
  | 0xB8#8 => some (.adc y x)
  | 0xB9#8 => some (.loopReg y x)
  | 0xBA#8 => some (.loopRegImm y x)
  | 0xBB#8 => some (.loopImm y x)
  | 0xBC#8 => some (.sbc y x)
  | 0xBD#8 => some (.satW y x)
  | 0xBE#8 => some (.satUw y x)
  | 0xBF#8 => decodeSystem w
  | _ => none

/-- Class 7, `[%dp+imm6]`: 30_encoding.md R129. -/
def decodeClass7 (w : Half) : Option Instr :=
  let imm6 := fieldImm6 w
  let r := fieldY w
  match fieldOp1 w with
  | 0b000#3 => some (.ldbDp r imm6)
  | 0b001#3 => some (.ldubDp r imm6)
  | 0b010#3 => some (.ldhDp r imm6)
  | 0b011#3 => some (.lduhDp r imm6)
  | 0b100#3 => some (.ldwDp r imm6)
  | 0b101#3 => some (.stbDp imm6 r)
  | 0b110#3 => some (.sthDp imm6 r)
  | 0b111#3 => some (.stwDp imm6 r)

/-- The instruction a 16-bit code stands for, by its class, bits 15:13 (30_encoding.md R121, R137). -/
def decodeHalf (w : Half) : Option Instr :=
  match w.extractLsb' 13 3 with
  | 0b000#3 => decodeClass0 w
  | 0b001#3 => decodeClass1 w
  | 0b010#3 => decodeClass2 w
  | 0b011#3 => decodeClass3 w
  | 0b100#3 => decodeClass4 w
  | 0b101#3 => decodeClass5 w
  | 0b110#3 => some (.extImm (w.extractLsb' 0 13))
  | 0b111#3 => decodeClass7 w

/-- The code held by two bytes in address order (20_memory.md R81, R87). -/
def codeOfBytes (bigEndian : Bool) (b0 b1 : Byte) : Half := if bigEndian then b0 ++ b1 else b1 ++ b0

/-- The two bytes of a code in address order (20_memory.md R81, R87). -/
def bytesOfCode (bigEndian : Bool) (w : Half) : List Byte :=
  let high := w.extractLsb' 8 8
  let low := w.extractLsb' 0 8
  if bigEndian then [high, low] else [low, high]

/-- Decodes the first code of a list of bytes and gives the bytes after it. -/
def decode (bigEndian : Bool) : List Byte → Except DecodeError (Instr × List Byte)
  | b0 :: b1 :: rest =>
    let code := codeOfBytes bigEndian b0 b1
    match decodeHalf code with
    | some i => .ok (i, rest)
    | none => .error (.unassigned code)
  | _ => .error .truncated

/-- Bit 8 of a branch code (30_encoding.md R125). -/
def bit (d : Bool) : BitVec 1 := BitVec.ofBool d

/-- The 16-bit code of an instruction: the code row of its page, most significant bits first. For a count
that its code cannot hold (an instruction that is not well formed) the code keeps the low four bits. -/
def encodeHalf : Instr → Half
  | .nop => 0b0000000000000000#16
  | .slp => 0b0000000001000000#16
  | .halt => 0b0000000010000000#16
  | .pushn rs => 0b000000100000#12 ++ rs
  | .popn rd => 0b000000100100#12 ++ rd
  | .jpr d rb => 0b0000001#7 ++ bit d ++ 0b1100#4 ++ rb
  | .brk => 0b0000010000000000#16
  | .retd => 0b0000010001000000#16
  | .int imm2 => 0b00000100100000#14 ++ imm2
  | .reti => 0b0000010011000000#16
  | .callReg d rb => 0b0000011#7 ++ bit d ++ 0b0000#4 ++ rb
  | .ret d => 0b0000011#7 ++ bit d ++ 0b01000000#8
  | .jpReg d rb => 0b0000011#7 ++ bit d ++ 0b1000#4 ++ rb
  | .retm => 0b0000011011000000#16
  | .push rs => 0b000000000001#12 ++ rs
  | .pop rd => 0b000000000101#12 ++ rd
  | .pushs ss => 0b000000001001#12 ++ ss
  | .pops sd => 0b000000001101#12 ++ sd
  | .macW rs => 0b000000010001#12 ++ rs
  | .macHw rs => 0b000000010101#12 ++ rs
  | .macclr => 0b0000000110010000#16
  | .ldCf => 0b0000000111010000#16
  | .divuW rs => 0b000000100001#12 ++ rs
  | .divW rs => 0b000000100101#12 ++ rs
  | .repeatReg rc => 0b000000101001#12 ++ rc
  | .repeatImm imm4 => 0b000000101101#12 ++ imm4
  | .addDp rd => 0b000000110101#12 ++ rd
  | .jrgt d sign8 => 0b0000100#7 ++ bit d ++ sign8
  | .jrge d sign8 => 0b0000101#7 ++ bit d ++ sign8
  | .jrlt d sign8 => 0b0000110#7 ++ bit d ++ sign8
  | .jrle d sign8 => 0b0000111#7 ++ bit d ++ sign8
  | .jrugt d sign8 => 0b0001000#7 ++ bit d ++ sign8
  | .jruge d sign8 => 0b0001001#7 ++ bit d ++ sign8
  | .jrult d sign8 => 0b0001010#7 ++ bit d ++ sign8
  | .jrule d sign8 => 0b0001011#7 ++ bit d ++ sign8
  | .jreq d sign8 => 0b0001100#7 ++ bit d ++ sign8
  | .jrne d sign8 => 0b0001101#7 ++ bit d ++ sign8
  | .callRel d sign8 => 0b0001110#7 ++ bit d ++ sign8
  | .jpRel d sign8 => 0b0001111#7 ++ bit d ++ sign8
  | .ldbInd rd rb => 0b00100000#8 ++ rb ++ rd
  | .ldbInc rd rb => 0b00100001#8 ++ rb ++ rd
  | .ldubInd rd rb => 0b00100100#8 ++ rb ++ rd
  | .ldubInc rd rb => 0b00100101#8 ++ rb ++ rd
  | .ldhInd rd rb => 0b00101000#8 ++ rb ++ rd
  | .ldhInc rd rb => 0b00101001#8 ++ rb ++ rd
  | .lduhInd rd rb => 0b00101100#8 ++ rb ++ rd
  | .lduhInc rd rb => 0b00101101#8 ++ rb ++ rd
  | .ldwInd rd rb => 0b00110000#8 ++ rb ++ rd
  | .ldwInc rd rb => 0b00110001#8 ++ rb ++ rd
  | .stbInd rb rs => 0b00110100#8 ++ rb ++ rs
  | .stbInc rb rs => 0b00110101#8 ++ rb ++ rs
  | .sthInd rb rs => 0b00111000#8 ++ rb ++ rs
  | .sthInc rb rs => 0b00111001#8 ++ rb ++ rs
  | .stwInd rb rs => 0b00111100#8 ++ rb ++ rs
  | .stwInc rb rs => 0b00111101#8 ++ rb ++ rs
  | .addReg rd rs => 0b00100010#8 ++ rs ++ rd
  | .subReg rd rs => 0b00100110#8 ++ rs ++ rd
  | .cmpReg rd rs => 0b00101010#8 ++ rs ++ rd
  | .ldwReg rd rs => 0b00101110#8 ++ rs ++ rd
  | .andReg rd rs => 0b00110010#8 ++ rs ++ rd
  | .orReg rd rs => 0b00110110#8 ++ rs ++ rd
  | .xorReg rd rs => 0b00111010#8 ++ rs ++ rd
  | .notReg rd rs => 0b00111110#8 ++ rs ++ rd
  | .srlHigh rd imm5 => 0b00100011#8 ++ imm5.extractLsb' 0 4 ++ rd
  | .sllHigh rd imm5 => 0b00100111#8 ++ imm5.extractLsb' 0 4 ++ rd
  | .sraHigh rd imm5 => 0b00101011#8 ++ imm5.extractLsb' 0 4 ++ rd
  | .slaHigh rd imm5 => 0b00101111#8 ++ imm5.extractLsb' 0 4 ++ rd
  | .rrHigh rd imm5 => 0b00110011#8 ++ imm5.extractLsb' 0 4 ++ rd
  | .rlHigh rd imm5 => 0b00110111#8 ++ imm5.extractLsb' 0 4 ++ rd
  | .extSra imm2 => 0b00111011000001#14 ++ imm2
  | .extSrl imm2 => 0b00111011000010#14 ++ imm2
  | .extSll imm2 => 0b00111011000011#14 ++ imm2
  | .extGt => 0b0011101101000000#16
  | .extGe => 0b0011101101010000#16
  | .extLt => 0b0011101101100000#16
  | .extLe => 0b0011101101110000#16
  | .extUgt => 0b0011101110000000#16
  | .extUge => 0b0011101110010000#16
  | .extUlt => 0b0011101110100000#16
  | .extUle => 0b0011101110110000#16
  | .extEq => 0b0011101111000000#16
  | .extNe => 0b0011101111010000#16
  | .extReg rs => 0b00111111#8 ++ rs ++ 0b0000#4
  | .extRegSra rs imm2 => 0b00111111#8 ++ rs ++ 0b01#2 ++ imm2
  | .extRegSrl rs imm2 => 0b00111111#8 ++ rs ++ 0b10#2 ++ imm2
  | .extRegSll rs imm2 => 0b00111111#8 ++ rs ++ 0b11#2 ++ imm2
  | .ldbSp rd imm6 => 0b010000#6 ++ imm6 ++ rd
  | .ldubSp rd imm6 => 0b010001#6 ++ imm6 ++ rd
  | .ldhSp rd imm6 => 0b010010#6 ++ imm6 ++ rd
  | .lduhSp rd imm6 => 0b010011#6 ++ imm6 ++ rd
  | .ldwSp rd imm6 => 0b010100#6 ++ imm6 ++ rd
  | .stbSp imm6 rs => 0b010101#6 ++ imm6 ++ rs
  | .sthSp imm6 rs => 0b010110#6 ++ imm6 ++ rs
  | .stwSp imm6 rs => 0b010111#6 ++ imm6 ++ rs
  | .ldbDp rd imm6 => 0b111000#6 ++ imm6 ++ rd
  | .ldubDp rd imm6 => 0b111001#6 ++ imm6 ++ rd
  | .ldhDp rd imm6 => 0b111010#6 ++ imm6 ++ rd
  | .lduhDp rd imm6 => 0b111011#6 ++ imm6 ++ rd
  | .ldwDp rd imm6 => 0b111100#6 ++ imm6 ++ rd
  | .stbDp imm6 rs => 0b111101#6 ++ imm6 ++ rs
  | .sthDp imm6 rs => 0b111110#6 ++ imm6 ++ rs
  | .stwDp imm6 rs => 0b111111#6 ++ imm6 ++ rs
  | .addImm rd imm6 => 0b011000#6 ++ imm6 ++ rd
  | .subImm rd imm6 => 0b011001#6 ++ imm6 ++ rd
  | .cmpImm rd sign6 => 0b011010#6 ++ sign6 ++ rd
  | .ldwImm rd sign6 => 0b011011#6 ++ sign6 ++ rd
  | .andImm rd sign6 => 0b011100#6 ++ sign6 ++ rd
  | .orImm rd sign6 => 0b011101#6 ++ sign6 ++ rd
  | .xorImm rd sign6 => 0b011110#6 ++ sign6 ++ rd
  | .notImm rd sign6 => 0b011111#6 ++ sign6 ++ rd
  | .addSp imm10 => 0b100000#6 ++ imm10
  | .subSp imm10 => 0b100001#6 ++ imm10
  | .srlLow rd imm5 => 0b10001000#8 ++ imm5.extractLsb' 0 4 ++ rd
  | .srlReg rd rs => 0b10001001#8 ++ rs ++ rd
  | .sllLow rd imm5 => 0b10001100#8 ++ imm5.extractLsb' 0 4 ++ rd
  | .sllReg rd rs => 0b10001101#8 ++ rs ++ rd
  | .sraLow rd imm5 => 0b10010000#8 ++ imm5.extractLsb' 0 4 ++ rd
  | .sraReg rd rs => 0b10010001#8 ++ rs ++ rd
  | .slaLow rd imm5 => 0b10010100#8 ++ imm5.extractLsb' 0 4 ++ rd
  | .slaReg rd rs => 0b10010101#8 ++ rs ++ rd
  | .rrLow rd imm5 => 0b10011000#8 ++ imm5.extractLsb' 0 4 ++ rd
  | .rrReg rd rs => 0b10011001#8 ++ rs ++ rd
  | .rlLow rd imm5 => 0b10011100#8 ++ imm5.extractLsb' 0 4 ++ rd
  | .rlReg rd rs => 0b10011101#8 ++ rs ++ rd
  | .scan0 rd rs => 0b10001010#8 ++ rs ++ rd
  | .scan1 rd rs => 0b10001110#8 ++ rs ++ rd
  | .swap rd rs => 0b10010010#8 ++ rs ++ rd
  | .mirror rd rs => 0b10010110#8 ++ rs ++ rd
  | .swaph rd rs => 0b10011010#8 ++ rs ++ rd
  | .satB rd rs => 0b10011110#8 ++ rs ++ rd
  | .div0s rs => 0b10001011#8 ++ rs ++ 0b0000#4
  | .div0u rs => 0b10001111#8 ++ rs ++ 0b0000#4
  | .div1 rs => 0b10010011#8 ++ rs ++ 0b0000#4
  | .div2s rs => 0b10010111#8 ++ rs ++ 0b0000#4
  | .div3s => 0b1001101100000000#16
  | .satUb rd rs => 0b10011111#8 ++ rs ++ rd
  | .ldwSd sd rs => 0b10100000#8 ++ rs ++ sd
  | .ldbReg rd rs => 0b10100001#8 ++ rs ++ rd
  | .mltH rd rs => 0b10100010#8 ++ rs ++ rd
  | .mltHw rd rs => 0b10100011#8 ++ rs ++ rd
  | .ldwSs rd ss => 0b10100100#8 ++ ss ++ rd
  | .ldubReg rd rs => 0b10100101#8 ++ rs ++ rd
  | .mltuH rd rs => 0b10100110#8 ++ rs ++ rd
  | .mac1H rd rs => 0b10100111#8 ++ rs ++ rd
  | .btst rb imm3 => 0b10101000#8 ++ rb ++ 0b0#1 ++ imm3
  | .ldhReg rd rs => 0b10101001#8 ++ rs ++ rd
  | .mltW rd rs => 0b10101010#8 ++ rs ++ rd
  | .mac1Hw rd rs => 0b10101011#8 ++ rs ++ rd
  | .bclr rb imm3 => 0b10101100#8 ++ rb ++ 0b0#1 ++ imm3
  | .lduhReg rd rs => 0b10101101#8 ++ rs ++ rd
  | .mltuW rd rs => 0b10101110#8 ++ rs ++ rd
  | .bset rb imm3 => 0b10110000#8 ++ rb ++ 0b0#1 ++ imm3
  | .ldcRead rd imm4 => 0b10110001#8 ++ imm4 ++ rd
  | .mac rs => 0b10110010#8 ++ rs ++ 0b0000#4
  | .mac1W rd rs => 0b10110011#8 ++ rs ++ rd
  | .bnot rb imm3 => 0b10110100#8 ++ rb ++ 0b0#1 ++ imm3
  | .ldcWrite imm4 rs => 0b10110101#8 ++ imm4 ++ rs
  | .satH rd rs => 0b10110110#8 ++ rs ++ rd
  | .satUh rd rs => 0b10110111#8 ++ rs ++ rd
  | .adc rd rs => 0b10111000#8 ++ rs ++ rd
  | .loopReg rc ra => 0b10111001#8 ++ ra ++ rc
  | .loopRegImm rc imm4 => 0b10111010#8 ++ imm4 ++ rc
  | .loopImm count addr => 0b10111011#8 ++ addr ++ count
  | .sbc rd rs => 0b10111100#8 ++ rs ++ rd
  | .satW rd rs => 0b10111101#8 ++ rs ++ rd
  | .satUw rd rs => 0b10111110#8 ++ rs ++ rd
  | .doC imm6 => 0b1011111100#10 ++ imm6
  | .psrset imm5 => 0b10111111010#11 ++ imm5
  | .psrclr imm5 => 0b10111111100#11 ++ imm5
  | .extImm imm13 => 0b110#3 ++ imm13

/-- The bytes of an instruction, in address order. -/
def encode (bigEndian : Bool) (i : Instr) : List Byte := bytesOfCode bigEndian (encodeHalf i)

/-- The instruction the decoder reads from a code numbered as the opcode table numbers it: one halfword,
bit 0 least significant. The code is laid out little endian, the default byte order (20_memory.md R81), and given to the decoder. -/
def decodeTableWord (nbits w : Nat) : Option Instr :=
  if nbits = 16 then
    match decode false (bytesOfCode false (BitVec.ofNat 16 w)) with
    | .ok (i, _) => some i
    | .error _ => none
  else none

end Sys2Proof
end

