-- ==== Sys2Proof/Config.lean ====
section
/-! DEFINITION. What the manual leaves to an implementation: free values (constants with no body, so a claim
is true whatever they are), the coprocessor's answers, and the two address maps of the chip family. -/

namespace Sys2Proof

/-- One operation that may change the coprocessor (51_system_coproc.md R500): a read of register `imm4`, a write of a
value to register `imm4`, a 6-bit command. Reading the flags leaves the coprocessor as it is. -/
inductive CopEvent where
  | read (imm4 : BitVec 4)
  | write (imm4 : BitVec 4) (v : Word)
  | exec (imm6 : BitVec 6)
deriving DecidableEq, Repr

namespace Config

/-- The stream of free 32-bit values: every value the manual calls indeterminate is the next element,
read at the index State holds (93_implementation_defined.md, treatment "any value"). -/
opaque freeWord : Nat → Word

/-- IDIR[23:16], "varies depending on the CPU revision and installed model" (10_state.md R45, D17). -/
opaque idirRevision : Byte

/-- What the coprocessor answers to `ld.c %rd,imm4` after a history of operations, newest first (D15). -/
opaque copRead : List CopEvent → BitVec 4 → Word

/-- `cop_flags`: the C, V, Z, N the coprocessor shows after a history of operations, C in bit 3 (D15). -/
opaque copFlags : List CopEvent → BitVec 4

/-- The use the manual's figure prints for an area of the physical space (20_memory.md R96). -/
inductive AreaUse where
  | internalRam | internalIo | debugging | externalMemory
deriving DecidableEq, Repr

/-- First address, last address and use of an area (20_memory.md R96). -/
structure Area where
  first : Nat
  last : Nat
  use : AreaUse
deriving DecidableEq, Repr

/-- Areas 0 to 22 in order. The core issues the same accesses to all of them (20_memory.md R96), so the
step does not read this table; it is here because the spec gives it. -/
def areas : List Area := [
  ⟨0x00000000, 0x0001FFFF, .internalRam⟩, ⟨0x00020000, 0x0005FFFF, .internalIo⟩,
  ⟨0x00060000, 0x0007FFFF, .debugging⟩, ⟨0x00080000, 0x000FFFFF, .internalRam⟩,
  ⟨0x00100000, 0x001FFFFF, .externalMemory⟩, ⟨0x00200000, 0x002FFFFF, .externalMemory⟩,
  ⟨0x00300000, 0x003FFFFF, .externalMemory⟩, ⟨0x00400000, 0x005FFFFF, .externalMemory⟩,
  ⟨0x00600000, 0x007FFFFF, .externalMemory⟩, ⟨0x00800000, 0x00BFFFFF, .externalMemory⟩,
  ⟨0x00C00000, 0x00FFFFFF, .externalMemory⟩, ⟨0x01000000, 0x017FFFFF, .externalMemory⟩,
  ⟨0x01800000, 0x01FFFFFF, .externalMemory⟩, ⟨0x02000000, 0x02FFFFFF, .externalMemory⟩,
  ⟨0x03000000, 0x03FFFFFF, .externalMemory⟩, ⟨0x04000000, 0x05FFFFFF, .externalMemory⟩,
  ⟨0x06000000, 0x07FFFFFF, .externalMemory⟩, ⟨0x08000000, 0x0BFFFFFF, .externalMemory⟩,
  ⟨0x0C000000, 0x0FFFFFFF, .externalMemory⟩, ⟨0x10000000, 0x1FFFFFFF, .externalMemory⟩,
  ⟨0x20000000, 0x3FFFFFFF, .externalMemory⟩, ⟨0x40000000, 0x7FFFFFFF, .externalMemory⟩,
  ⟨0x80000000, 0xFFFFFFFF, .externalMemory⟩]

/-- The block, 0 to 7, of a logical address: eight equal parts of 0.5 GB (20_memory.md R90). -/
def block (a : Word) : BitVec 3 := a.extractLsb' 29 3

end Config

end Sys2Proof
end

