-- ==== Sys2Proof/Machine/State.lean ====
section
/-! DEFINITION. Everything the spec gives the machine, as plain data: registers, PSR, memory, the hidden
state of 10_state.md R50, the host's inputs and the parameters of 00_scope.md R7; the reasons a step stops;
the machine right after a cold reset. -/

namespace Sys2Proof.Machine

/-- The processor status register, one field per bit or bit group of 10_state.md R28. The unused bits 23, 19,
18 and 5 always read 0 and ignore writes, so they have no field. -/
structure Psr where
  /-- bit 31, halt and sleep enable (R30) -/
  he : Bool
  /-- bit 30, repeat mode (R31) -/
  rm : Bool
  /-- bit 29, loop mode (R31) -/
  lm : Bool
  /-- bit 28, push/pop mode (R31) -/
  pm : Bool
  /-- bits 27:24, register counter (R31) -/
  rc : BitVec 4
  /-- bit 22, scan word enable (R32) -/
  sw : Bool
  /-- bit 21, overflow clear enable (R32) -/
  oc : Bool
  /-- bit 20, shift with carry enable (R32) -/
  se : Bool
  /-- bit 17, ALR change enable (R21, R32) -/
  lc : Bool
  /-- bit 16, AHR change enable (R21, R32) -/
  hc : Bool
  /-- bit 15, saturation (R32) -/
  s : Bool
  /-- bit 14, debug exception (R36) -/
  de : Bool
  /-- bit 13, MMU exception (R36) -/
  me : Bool
  /-- bit 12, 0 supervisor, 1 user (R36) -/
  sv : Bool
  /-- bits 11:8, interrupt level (R36) -/
  il : BitVec 4
  /-- bit 7, multiply-accumulate overflow (R36) -/
  mo : Bool
  /-- bit 6, dividend sign (R36) -/
  ds : Bool
  /-- bit 4, interrupt enable (R36) -/
  ie : Bool
  /-- bit 3, carry (R33) -/
  c : Bool
  /-- bit 2, overflow (R34) -/
  v : Bool
  /-- bit 1, zero (R35) -/
  z : Bool
  /-- bit 0, negative (R35) -/
  n : Bool
deriving DecidableEq, Repr

/-- PSR = 0x00000000, its value after reset (10_state.md R49). -/
def Psr.zero : Psr where
  he := false
  rm := false
  lm := false
  pm := false
  rc := 0
  sw := false
  oc := false
  se := false
  lc := false
  hc := false
  s := false
  de := false
  me := false
  sv := false
  il := 0
  mo := false
  ds := false
  ie := false
  c := false
  v := false
  z := false
  n := false

/-- The record of prefixes pending for the next target instruction (52_ext.md R521). -/
structure Ext where
  /-- up to two 13-bit immediates, the first written first -/
  imm : List (BitVec 13)
  /-- the register of `ext %rs` -/
  rs : Option Reg
  /-- the postshift of `ext op,imm2` -/
  shift : Option (ShiftOp × BitVec 2)
  /-- the condition of `ext cond` -/
  cond : Option Cond
  /-- the address of the first prefix of the series -/
  start : Option Word
  /-- how many prefixes the series has so far -/
  count : Nat
deriving DecidableEq, Repr

/-- No prefix pending (52_ext.md R521). -/
def Ext.empty : Ext where
  imm := []
  rs := none
  shift := none
  cond := none
  start := none
  count := 0

/-- What the core is doing (60_exceptions.md R600). -/
inductive RunState where
  | running | halt | sleep | reset
deriving DecidableEq, Repr

/-- The two kinds of reset, told apart by #NMI during the pulse (70_reset_and_hazards.md R621). -/
inductive ResetKind where
  | cold | hot
deriving DecidableEq, Repr

/-- A maskable request from the interrupt controller: source 0 to 239, which is vector 16 + source, and its
priority level (60_exceptions.md R586). -/
structure Request where
  source : Fin 240
  level : BitVec 4
deriving DecidableEq, Repr

/-- What the host asserts at one boundary (92_eei_decisions.md D9, D31). -/
structure HostInput where
  reset : Option ResetKind
  nmi : Bool
  request : Option Request
  debugBreak : Bool
deriving DecidableEq, Repr

/-- Nothing asserted, the default of 92_eei_decisions.md D9. -/
def HostInput.none : HostInput where
  reset := Option.none
  nmi := false
  request := Option.none
  debugBreak := false

/-- The kind of an access, as `Translate` sees it (20_memory.md R93). -/
inductive AccessKind where
  | fetch | read | write
deriving DecidableEq, Repr

/-- One entry of the translation parameter: accesses of one kind and mode to one 4 KB page go to a physical
page, or miss when `frame` is none (20_memory.md R92, R93). Pages without an entry translate to themselves. -/
structure Translation where
  page : BitVec 20
  kind : AccessKind
  user : Bool
  frame : Option (BitVec 20)
deriving DecidableEq, Repr

/-- The parameters of 00_scope.md R7 that are data. No step changes them. -/
structure Params where
  /-- BIG_ENDIAN (92_eei_decisions.md D1) -/
  bigEndian : Bool
  /-- DEBUG_BASE is 0x00000000 instead of 0x00060000 (92_eei_decisions.md D24) -/
  debugBaseLow : Bool
  /-- Translate, where it is not the identity (92_eei_decisions.md D6) -/
  translations : List Translation
deriving DecidableEq, Repr

/-- The defaults of 00_scope.md R7. -/
def Params.default : Params where
  bigEndian := false
  debugBaseLow := false
  translations := []

/-- The state of the machine. -/
structure State where
  /-- R0 to R15 (10_state.md R20) -/
  gpr : Vector Word 16
  /-- the address of the instruction to execute (R23) -/
  pc : Word
  /-- special register 0 (R28) -/
  psr : Psr
  /-- special register 14 (R37) -/
  ssp : Word
  /-- special register 13 (R37) -/
  usp : Word
  /-- special register 2 (R44) -/
  alr : Word
  /-- special register 3 (R44) -/
  ahr : Word
  /-- special register 4 (R43) -/
  lco : Word
  /-- special register 5 (R43) -/
  lsa : Word
  /-- special register 6 (R43) -/
  lea : Word
  /-- special register 7 (R42) -/
  sor : Word
  /-- special register 8 (R41) -/
  ttbr : Word
  /-- special register 9 (R40) -/
  dp : Word
  /-- every byte that is not 0, addresses strictly rising (20_memory.md R80, 93_implementation_defined.md U12) -/
  mem : List Host.Cell
  /-- the pending prefixes (52_ext.md R521) -/
  ext : Ext
  /-- after a delayed branch: where to go on after the slot (48_branch.md R394) -/
  delay : Option Word
  /-- NMI held off since reset (60_exceptions.md R584) -/
  nmiMasked : Bool
  /-- an NMI handler has not executed `reti` yet (60_exceptions.md R585) -/
  nmiInService : Bool
  /-- running, HALT, SLEEP or reset (60_exceptions.md R600) -/
  run : RunState
  /-- how many of the coming instructions may read DS wrongly (70_reset_and_hazards.md R642) -/
  dsWindow : Nat
  /-- how many of the coming instructions must not read AHR, ALR or PSR (70_reset_and_hazards.md R643) -/
  macWindow : Nat
  /-- the operations that may have changed the coprocessor, newest first (51_system_coproc.md R500) -/
  cop : List CopEvent
  /-- what the host asserts at the coming boundaries; nothing after the end (92_eei_decisions.md D9) -/
  inputs : List HostInput
  /-- the parameters of 00_scope.md R7 -/
  params : Params
  /-- the physical addresses of the bytes stored since a taken branch, a trap entry or a trap return last discarded the
  prefetched codes (20_memory.md R104, 92_eei_decisions.md D11; log 4) -/
  stores : List Word
  /-- the flag of 92_eei_decisions.md D11: some code has been fetched from a byte stored since the prefetched codes were
  last discarded (20_memory.md R104, 93_implementation_defined.md U31; log 4) -/
  staleFetch : Bool
  /-- the model's own field: the index of the next free value of Config.freeWord -/
  free : Nat
deriving DecidableEq, Repr

/-- The synchronous causes an MMU or debug handler must not raise (60_exceptions.md R569). -/
inductive Cause where
  | zeroDivision | addressMisaligned | software | breakpoint | mmu
deriving DecidableEq, Repr

/-- Why the machine stops. Each is a place where the spec gives the hardware no behaviour and its decision is
that the model faults, so stopping is safe: no claim about a next state can be proved there. -/
inductive Fault where
  /-- the fetch of a code in no table (30_encoding.md R134, D3); raised by `step`; safe -/
  | unassignedCode (code : Half)
  /-- an instruction that may not stand in a delay slot stands in one (48_branch.md R397, D14); raised by
  every such instruction; safe -/
  | prohibitedDelaySlot
  /-- a prefix that makes the series one the manual does not list (52_ext.md R522, D12); raised by the
  prefixes; safe -/
  | illegalExtSeries
  /-- RM = 1 and an unrepeatable instruction at LSA (50_loop_repeat.md R481 a, D23); raised by those
  instructions; safe -/
  | unrepeatableAtLsa
  /-- LM = 1 and an instruction at LEA, or a delayed branch at LEA - 2, that may not stand there
  (50_loop_repeat.md R481 b, D23); raised by those instructions; safe -/
  | forbiddenAtLoopEnd
  /-- LCO, LSA or LEA written while a loop or repeat uses it (50_loop_repeat.md R481 c, D23); raised by
  `ld.w %sd,%rs` and `pops`; safe -/
  | loopRegisterWrite
  /-- a `loop` whose range is one instruction (50_loop_repeat.md R481 d, D23); raised by `loop`; safe -/
  | singleInstructionLoop
  /-- AHR, ALR or PSR read within two instructions of `macclr` (70_reset_and_hazards.md R643, D32); raised by
  `ld.w %rd,%ss` and `pushs`; safe -/
  | macclrHazard
  /-- a synchronous exception while ME = 1 or DE = 1 (60_exceptions.md R569, D29); raised by the instruction
  that causes it; safe -/
  | exceptionInHandler (cause : Cause)
deriving DecidableEq, Repr

/-- Why the model gives an instruction no meaning. -/
inductive Refusal where
  /-- exec's arm for an instruction that has no meaning in this model; safe -/
  | notModelled (mnemonic : String)
deriving DecidableEq, Repr

/-- What every meaning answers. -/
abbrev Result := Host.Outcome State Fault Refusal

/-- The machine right after a cold reset of an empty memory (10_state.md R49, 70_reset_and_hazards.md R620):
PSR is 0, TTBR is 0x20000000, the pc is the word at the reset vector, which is 0 here, NMI is masked, nothing is
pending. DESIGN CHOICE: the registers the manual calls indeterminate are 0 (log 1), and so is memory (log 2). -/
def State.reset : State where
  gpr := Vector.replicate 16 0
  pc := 0
  psr := Psr.zero
  ssp := 0
  usp := 0
  alr := 0
  ahr := 0
  lco := 0
  lsa := 0
  lea := 0
  sor := 0
  ttbr := 0x20000000
  dp := 0
  mem := []
  ext := Ext.empty
  delay := none
  nmiMasked := true
  nmiInService := false
  run := .running
  dsWindow := 0
  macWindow := 0
  cop := []
  inputs := []
  params := Params.default
  stores := []
  staleFetch := false
  free := 0

end Sys2Proof.Machine
end

