-- ==== Sys2Proof/Machine/Ops.lean ====
section
/-! DEFINITION. The named operations every meaning shares: free values, the PSR as a word, general and special
registers, memory and translation, taking an exception and returning from one, reset and the host's inputs. -/

namespace Sys2Proof.Machine

/-! ## Free values -/

/-- The next free value, and the state that has used it up (93_implementation_defined.md, "any value"). -/
def State.draw (s : State) : Word × State := (Config.freeWord s.free, { s with free := s.free + 1 })

/-! ## PSR as a word (10_state.md R28, R29) -/

/-- All 32 bits of PSR; the unused bits 23, 19, 18 and 5 read 0 (R28). -/
def Psr.toWord (p : Psr) : Word :=
  BitVec.ofBool p.he ++ BitVec.ofBool p.rm ++ BitVec.ofBool p.lm ++ BitVec.ofBool p.pm ++ p.rc ++
  0#1 ++ BitVec.ofBool p.sw ++ BitVec.ofBool p.oc ++ BitVec.ofBool p.se ++ 0#2 ++
  BitVec.ofBool p.lc ++ BitVec.ofBool p.hc ++ BitVec.ofBool p.s ++ BitVec.ofBool p.de ++
  BitVec.ofBool p.me ++ BitVec.ofBool p.sv ++ p.il ++ BitVec.ofBool p.mo ++ BitVec.ofBool p.ds ++
  0#1 ++ BitVec.ofBool p.ie ++ BitVec.ofBool p.c ++ BitVec.ofBool p.v ++ BitVec.ofBool p.z ++
  BitVec.ofBool p.n

/-- An explicit write of a word to PSR (R29): with supervisor rights the mask 0xFF739FDF, else 0x7F7380CF. DE and ME
never change, and without the rights HE, SV, IL and IE do not. -/
def Psr.write (p : Psr) (supervisor : Bool) (v : Word) : Psr where
  he := if supervisor then v.getLsbD 31 else p.he
  rm := v.getLsbD 30
  lm := v.getLsbD 29
  pm := v.getLsbD 28
  rc := v.extractLsb' 24 4
  sw := v.getLsbD 22
  oc := v.getLsbD 21
  se := v.getLsbD 20
  lc := v.getLsbD 17
  hc := v.getLsbD 16
  s := v.getLsbD 15
  de := p.de
  me := p.me
  sv := if supervisor then v.getLsbD 12 else p.sv
  il := if supervisor then v.extractLsb' 8 4 else p.il
  mo := v.getLsbD 7
  ds := v.getLsbD 6
  ie := if supervisor then v.getLsbD 4 else p.ie
  c := v.getLsbD 3
  v := v.getLsbD 2
  z := v.getLsbD 1
  n := v.getLsbD 0

/-- Write rights are the supervisor's in supervisor mode, and while ME = 1 whatever SV is
(60_exceptions.md R592 d, D30). -/
def Psr.supervisorRights (p : Psr) : Bool := !p.sv || p.me

/-- `write_psr(v)` under the current mode's rights (10_state.md R29). -/
def State.writePsr (s : State) (v : Word) : State :=
  { s with psr := s.psr.write s.psr.supervisorRights v }

/-! ## Registers -/

/-- An address with bit 0 forced to 0, as every load of the PC does (10_state.md R24). -/
def evenAddress (a : Word) : Word := a &&& 0xFFFFFFFE#32

/-- A value with bits 1:0 forced to 0, as SSP, USP and DP store it (10_state.md R38, R40). -/
def wordAddress (a : Word) : Word := a &&& 0xFFFFFFFC#32

/-- A value with bits 9:0 forced to 0, as TTBR stores it (10_state.md R41). -/
def tableAddress (a : Word) : Word := a &&& 0xFFFFFC00#32

/-- `r[n]` (10_state.md R20). -/
def State.reg (s : State) (n : Reg) : Word := s.gpr[n.toNat]'n.isLt

/-- `r[n] <- v` (10_state.md R20). -/
def State.setReg (s : State) (n : Reg) (v : Word) : State :=
  { s with gpr := s.gpr.set n.toNat v n.isLt }

/-- `SP`: SSP in supervisor mode, USP in user mode, by PSR.SV alone (10_state.md R37, D30). -/
def State.sp (s : State) : Word := if s.psr.sv then s.usp else s.ssp

/-- `SP <- v`; bits 1:0 stay 0 (10_state.md R37, R38). -/
def State.setSp (s : State) (v : Word) : State :=
  if s.psr.sv then { s with usp := wordAddress v } else { s with ssp := wordAddress v }

/-- `writeALR(v)`: ALR, and R4 when LC = 1 (10_state.md R21). -/
def State.writeAlr (s : State) (v : Word) : State :=
  let t := { s with alr := v }
  if s.psr.lc then t.setReg 4#4 v else t

/-- `writeAHR(v)`: AHR, and R5 when HC = 1 (10_state.md R21). -/
def State.writeAhr (s : State) (v : Word) : State :=
  let t := { s with ahr := v }
  if s.psr.hc then t.setReg 5#4 v else t

/-- IDIR: 0x04, the revision, 0x0000 (10_state.md R45). -/
def idir : Word := 0x04#8 ++ Config.idirRevision ++ 0x0000#16

/-- DBBR: fixed to 0x00060000 (10_state.md R46). -/
def dbbr : Word := 0x00060000#32

/-- `sr[n]` for every number but 12, which is no register (10_state.md R47, 40_data_transfer.md R176). PC, the
last number, reads as the address of the reading instruction plus 2 (R26). -/
def State.special (s : State) (n : SReg) : Option Word :=
  match n with
  | 0#4 => some s.psr.toWord
  | 1#4 => some s.sp
  | 2#4 => some s.alr
  | 3#4 => some s.ahr
  | 4#4 => some s.lco
  | 5#4 => some s.lsa
  | 6#4 => some s.lea
  | 7#4 => some s.sor
  | 8#4 => some s.ttbr
  | 9#4 => some s.dp
  | 10#4 => some idir
  | 11#4 => some dbbr
  | 12#4 => none
  | 13#4 => some s.usp
  | 14#4 => some s.ssp
  | _ => some (s.pc + 2)

/-- `sr[n] <- v` with the storage rules and access rights of 10_state.md R47 and R48: a write the mode does not
permit, to a constant, to the PC or to number 12 does nothing. -/
def State.setSpecial (s : State) (n : SReg) (v : Word) : State :=
  match n with
  | 0#4 => s.writePsr v
  | 1#4 => s.setSp v
  | 2#4 => { s with alr := v }
  | 3#4 => { s with ahr := v }
  | 4#4 => { s with lco := v }
  | 5#4 => { s with lsa := v }
  | 6#4 => { s with lea := v }
  | 7#4 => { s with sor := v }
  | 8#4 => if s.psr.supervisorRights then { s with ttbr := tableAddress v } else s
  | 9#4 => { s with dp := wordAddress v }
  | 13#4 => { s with usp := wordAddress v }
  | 14#4 => if s.psr.supervisorRights then { s with ssp := wordAddress v } else s
  | _ => s

/-! ## Memory: bytes (20_memory.md R80) -/

/-- The memory: the bytes that are not what an unlisted address reads as. -/
abbrev Memory := List Host.Cell

/-- What an address nothing has written reads as. DESIGN CHOICE: 0 (log 2). -/
def Memory.unlisted : Byte := 0

/-- The byte at an address. -/
def Memory.read : Memory → Nat → Byte
  | [], _ => Memory.unlisted
  | (b, v) :: m, a => if a = b then v else Memory.read m a

/-- The memory with the entry of one address put in its place. -/
def Memory.insert : Memory → Nat → Byte → Memory
  | [], a, v => [(a, v)]
  | (b, w) :: m, a, v =>
    if a < b then (a, v) :: (b, w) :: m
    else if a = b then (a, v) :: m
    else (b, w) :: Memory.insert m a v

/-- The memory with every entry of one address taken out. -/
def Memory.erase : Memory → Nat → Memory
  | [], _ => []
  | (b, w) :: m, a => if a = b then Memory.erase m a else (b, w) :: Memory.erase m a

/-- The memory after a byte is written; a byte equal to what an unlisted address reads as has no entry. -/
def Memory.write (m : Memory) (a : Nat) (v : Byte) : Memory :=
  if v = Memory.unlisted then Memory.erase m a else Memory.insert m a v

/-- Every address of the list is above `lo`. -/
def Memory.above (lo : Nat) : Memory → Bool
  | [] => true
  | (b, _) :: m => decide (lo < b) && Memory.above lo m

/-- The canonical form: addresses strictly rising and below 2^32, no entry that an unlisted address reads as. -/
def Memory.wf : Memory → Bool
  | [] => true
  | (b, w) :: m => decide (b < 4294967296) && decide (w ≠ Memory.unlisted) && Memory.above b m && Memory.wf m

/-! ## Memory: physical accesses (20_memory.md R81) -/

/-- The access sizes the core issues (20_memory.md R82). -/
inductive Size where
  | byte | half | word
deriving DecidableEq, Repr

/-- The size in bytes. -/
def Size.bytes : Size → Word
  | .byte => 1
  | .half => 2
  | .word => 4

/-- R84: a halfword address needs bit 0 = 0, a word address bits 1:0 = 00. -/
def Size.misaligned : Size → Word → Bool
  | .byte, _ => false
  | .half, a => a.getLsbD 0
  | .word, a => a.getLsbD 0 || a.getLsbD 1

/-- The byte at a physical address. -/
def State.byteAt (s : State) (p : Word) : Byte := Memory.read s.mem p.toNat

/-- A read of a physical address as one unsigned value, in the byte order of the machine (20_memory.md R81). -/
def State.physRead (s : State) (z : Size) (p : Word) : Word :=
  match z with
  | .byte => (s.byteAt p).setWidth 32
  | .half =>
    let b0 := s.byteAt p
    let b1 := s.byteAt (p + 1)
    ((if s.params.bigEndian then b0 ++ b1 else b1 ++ b0 : Half)).setWidth 32
  | .word =>
    let b0 := s.byteAt p
    let b1 := s.byteAt (p + 1)
    let b2 := s.byteAt (p + 2)
    let b3 := s.byteAt (p + 3)
    if s.params.bigEndian then b0 ++ b1 ++ b2 ++ b3 else b3 ++ b2 ++ b1 ++ b0

/-- Bits 8k+7 to 8k of a word. -/
def byteOf (v : Word) (k : Nat) : Byte := v.extractLsb' (8 * k) 8

/-- A memory with one byte written at a physical address. -/
def Memory.setByte (m : Memory) (p : Word) (v : Byte) : Memory := Memory.write m p.toNat v

/-- A write of the low bytes of a value to a physical address, in one byte order or the other (R81). -/
def Memory.put (m : Memory) (bigEndian : Bool) (z : Size) (p : Word) (v : Word) : Memory :=
  match z with
  | .byte => m.setByte p (byteOf v 0)
  | .half =>
    if bigEndian then (m.setByte p (byteOf v 1)).setByte (p + 1) (byteOf v 0)
    else (m.setByte p (byteOf v 0)).setByte (p + 1) (byteOf v 1)
  | .word =>
    if bigEndian then
      (((m.setByte p (byteOf v 3)).setByte (p + 1) (byteOf v 2)).setByte (p + 2) (byteOf v 1)).setByte
        (p + 3) (byteOf v 0)
    else
      (((m.setByte p (byteOf v 0)).setByte (p + 1) (byteOf v 1)).setByte (p + 2) (byteOf v 2)).setByte
        (p + 3) (byteOf v 3)

/-- A write of the low bytes of a value to a physical address, in the byte order of the machine (R81). -/
def State.physWrite (s : State) (z : Size) (p : Word) (v : Word) : State :=
  { s with mem := Memory.put s.mem s.params.bigEndian z p v }

/-! ## Memory: logical accesses (20_memory.md R84, R93) -/

/-- `Translate`: the physical address of an access, or none for a miss. The identity while ME = 1, and for
every page without an entry (R93, D6). -/
def State.translate (s : State) (k : AccessKind) (a : Word) : Option Word :=
  if s.psr.me then some a
  else
    match s.params.translations.find? fun t =>
        t.page == a.extractLsb' 12 20 && t.kind == k && t.user == s.psr.sv with
    | none => some a
    | some t => t.frame.map fun f => f ++ a.extractLsb' 0 12

/-- Why an access was not performed. -/
inductive Abort where
  /-- the address is not aligned to the access size (20_memory.md R84). -/
  | misaligned
  /-- Translate missed (20_memory.md R93). -/
  | miss
deriving DecidableEq, Repr

/-- The physical addresses of the bytes of an access. -/
def Size.span : Size → Word → List Word
  | .byte, p => [p]
  | .half, p => [p, p + 1]
  | .word, p => [p, p + 1, p + 2, p + 3]

/-- The bytes of a store are remembered until the prefetched codes are discarded (R104, D11; log 4). -/
def State.noteStore (s : State) (z : Size) (p : Word) : State := { s with stores := z.span p ++ s.stores }

/-- The prefetched codes are discarded, as a taken branch that is not delayed, a trap entry and a trap return do: every
store so far is visible to the fetches to come (R104, D11; log 4). -/
def State.discardPrefetch (s : State) : State := { s with stores := [] }

/-- A read through Translate, with no alignment check: the SP, DP and stack accesses, which cannot be
misaligned (20_memory.md R85). -/
def State.load (s : State) (z : Size) (a : Word) : Except Abort Word :=
  match s.translate .read a with
  | none => .error .miss
  | some p => .ok (s.physRead z p)

/-- A write through Translate, with no alignment check (20_memory.md R85). -/
def State.store (s : State) (z : Size) (a : Word) (v : Word) : Except Abort State :=
  match s.translate .write a with
  | none => .error .miss
  | some p => .ok ((s.noteStore z p).physWrite z p v)

/-- `MemRead`: alignment is checked before any access (00_scope.md R9, 20_memory.md R84). -/
def State.memRead (s : State) (z : Size) (a : Word) : Except Abort Word :=
  if z.misaligned a then .error .misaligned else s.load z a

/-- `MemWrite`: alignment is checked before any access (00_scope.md R9, 20_memory.md R84). -/
def State.memWrite (s : State) (z : Size) (a : Word) (v : Word) : Except Abort State :=
  if z.misaligned a then .error .misaligned else s.store z a v

/-! ## The MMU and debug exceptions (60_exceptions.md R590, R595) -/

/-- MMU exception (R590): PC and R0 to the physical slots 0x18 and 0x1C, ME set, the pc from the word at physical 0x10. The
prefixes, a pending delayed branch and the prefetched codes are dropped. Inside a debug handler it stops (R598, R569). -/
def State.mmuException (s : State) (ret : Word) : Result :=
  if s.psr.de then .fault (.exceptionInHandler .mmu)
  else
    let t := (s.physWrite .word 0x18#32 ret).physWrite .word 0x1C#32 (s.reg 0#4)
    .next { t with
      psr := { t.psr with me := true }
      pc := evenAddress (t.physRead .word 0x10#32)
      ext := Ext.empty
      delay := none
      run := .running
      stores := [] }

/-- DEBUG_BASE (R595, D24). -/
def State.debugBase (s : State) : Word := if s.params.debugBaseLow then 0x00000000#32 else 0x00060000#32

/-- Debug exception (R595): PC and R0 to the debug area, DE set, the pc from the debug vector, all with physical
accesses (20_memory.md R93). -/
def State.debugException (s : State) (ret : Word) : State :=
  let base := s.debugBase
  let t := (s.physWrite .word (base + 0x8) ret).physWrite .word (base + 0xC) (s.reg 0#4)
  { t with
    psr := { t.psr with de := true }
    pc := evenAddress (t.physRead .word base)
    ext := Ext.empty
    delay := none
    stores := [] }

/-! ## Taking an exception through the vector table (60_exceptions.md R563, R570) -/

/-- The address of vector number n: TTBR[31:10], n, 00 (R563). -/
def State.vectorAddress (s : State) (n : BitVec 8) : Word := s.ttbr.extractLsb' 10 22 ++ n ++ 0#2

/-- PSR after a trap entry (R570): IE, SV, RM, LM, PM cleared; IL is the level of an accepted maskable
interrupt, else unchanged. -/
def Psr.atEntry (p : Psr) (level : Option (BitVec 4)) : Psr :=
  { p with
    ie := false
    il := level.getD p.il
    sv := false
    rm := false
    lm := false
    pm := false }

/-- Trap entry (R570): PC, then PSR, pushed on the supervisor stack, PSR changed, the pc from the vector.
`restart` is the address an MMU exception saves when one of the entry's own accesses misses; then no register
has changed (log 20). `nmi` marks the entry of an NMI, which sets the nesting latch (R585). -/
def State.trap (s : State) (n : BitVec 8) (level : Option (BitVec 4)) (nmi : Bool) (ret restart : Word) :
    Result :=
  match s.store .word (s.ssp - 4) ret with
  | .error _ => s.mmuException restart
  | .ok s1 =>
    match s1.store .word (s.ssp - 8) s.psr.toWord with
    | .error _ => s1.mmuException restart
    | .ok s2 =>
      let t := { s2 with
        ssp := s.ssp - 8
        psr := s.psr.atEntry level
        nmiInService := s.nmiInService || nmi
        ext := Ext.empty
        delay := none
        run := .running
        stores := [] }
      match t.load .word (s.vectorAddress n) with
      | .error _ => s2.mmuException restart
      | .ok v => .next { t with pc := evenAddress v }

/-- A synchronous exception: inside an MMU or debug handler the machine stops (R569, D29), else a trap. -/
def State.raise (s : State) (cause : Cause) (n : BitVec 8) (ret restart : Word) : Result :=
  if s.psr.me || s.psr.de then .fault (.exceptionInHandler cause)
  else s.trap n none false ret restart

/-- The address an instruction restarts at: its first prefix when it has prefixes (52_ext.md R534 b), with seven or
more of them a free halfword address within the series (R534 d, D21), else its own address. -/
def State.restart (s : State) : Word × State :=
  let first := s.ext.start.getD s.pc
  if s.ext.count < 7 then (first, s)
  else
    let (w, t) := s.draw
    (first + 2 * BitVec.ofNat 32 (w.toNat % s.ext.count), t)

/-- What an instruction does when one of its accesses is not performed: the address misaligned exception, vector
6 (60_exceptions.md R574), or the MMU exception (R590), with the restart address saved. -/
def State.abort (s : State) (e : Abort) : Result :=
  let (p, t) := s.restart
  match e with
  | .misaligned => t.raise .addressMisaligned 6#8 p p
  | .miss => t.mmuException p

/-- Continue with the value of an access, or abort the instruction in the given state. -/
def State.orAbort {α : Type} (s : State) (x : Except Abort α) (k : α → Result) : Result :=
  match x with
  | .ok a => k a
  | .error e => s.abort e

/-! ## Returning from an exception (60_exceptions.md R580, R591, R597) -/

/-- `reti` (R580): the pc from SSP + 4, PSR from SSP under the write mask of the mode that executes it, SSP + 8; the
NMI nesting latch is cleared (R585), the prefetched codes are discarded (R104). Gives the state and the new pc. -/
def State.returnFromTrap (s : State) : Except Abort (State × Word) :=
  match s.load .word (s.ssp + 4) with
  | .error e => .error e
  | .ok newPc =>
    match s.load .word s.ssp with
    | .error e => .error e
    | .ok newPsr =>
      .ok ({ s.writePsr newPsr with ssp := s.ssp + 8, nmiInService := false, stores := [] }, evenAddress newPc)

/-- `retm` (R591): R0 and the pc from the physical slots 0x1C and 0x18, ME cleared, the prefetched codes
discarded. -/
def State.returnFromMmu (s : State) : State × Word :=
  let t := s.setReg 0#4 (s.physRead .word 0x1C#32)
  ({ t with psr := { t.psr with me := false }, stores := [] }, evenAddress (s.physRead .word 0x18#32))

/-- `retd` (R597): R0 and the pc from the debug area, DE cleared, the prefetched codes discarded. -/
def State.returnFromDebug (s : State) : State × Word :=
  let base := s.debugBase
  let t := s.setReg 0#4 (s.physRead .word (base + 0xC))
  ({ t with psr := { t.psr with de := false }, stores := [] }, evenAddress (s.physRead .word (base + 0x8)))

/-! ## Reset (70_reset_and_hazards.md R620) -/

/-- #RESET asserted (R620): the core is initialised and stays in reset. The registers the manual calls indeterminate
take free values, with their fixed bits (10_state.md R38, R40); a hot reset keeps TTBR. Memory, the coprocessor and
the parameters are not touched. -/
def State.beginReset (s : State) (kind : ResetKind) : State :=
  let f := fun k => Config.freeWord (s.free + k)
  { s with
    gpr := Vector.ofFn fun i => f i.val
    psr := Psr.zero
    ssp := wordAddress (f 16)
    usp := wordAddress (f 17)
    alr := f 18
    ahr := f 19
    lco := f 20
    lsa := f 21
    lea := f 22
    sor := f 23
    dp := wordAddress (f 24)
    ttbr := match kind with
      | .cold => 0x20000000#32
      | .hot => s.ttbr
    ext := Ext.empty
    delay := none
    nmiMasked := true
    nmiInService := false
    run := .reset
    dsWindow := 0
    macWindow := 0
    stores := []
    free := s.free + 25 }

/-- #RESET released (R620): the core runs from the word at the reset vector, vector number 0. -/
def State.endReset (s : State) : Result :=
  let t := { s with run := .running }
  match t.load .word (s.vectorAddress 0#8) with
  | .error _ => t.mmuException s.pc
  | .ok v => .next { t with pc := evenAddress v }

/-! ## The host's inputs (60_exceptions.md R562, R568, R583 to R586; D9, D31) -/

/-- What the host asserts at this boundary, and the state waiting for the next boundary. -/
def State.poll (s : State) : HostInput × State :=
  match s.inputs with
  | [] => (HostInput.none, s)
  | i :: rest => (i, { s with inputs := rest })

/-- R586: the acceptance condition of a maskable request, but for ME and DE. -/
def Psr.accepts (p : Psr) (r : Request) : Bool := p.ie && decide (p.il < r.level)

/-- The vector number of a maskable request: 16 + source (60_exceptions.md R561). -/
def Request.vector (r : Request) : BitVec 8 := BitVec.ofNat 8 (16 + r.source.val)

/-- The NMI or maskable interrupt accepted at a boundary, with the address it saves, if there is one. Neither is accepted
while ME = 1 or DE = 1; NMI comes first (R562, R568, R584 to R586). -/
def State.interrupt (s : State) (i : HostInput) (ret : Word) : Option Result :=
  if s.psr.me || s.psr.de then none
  else if i.nmi && !s.nmiMasked && !s.nmiInService then some (s.trap 7#8 none true ret ret)
  else
    match i.request with
    | none => none
    | some r => if s.psr.accepts r then some (s.trap r.vector (some r.level) false ret ret) else none

/-- The event accepted at a boundary of a running core: a debug break before an interrupt (R562). Nothing is accepted while
prefixes are pending (52_ext.md R521, R534 a; for a debug break D31) or a delayed branch waits for its slot (48_branch.md
R394), at a boundary inside an instruction no more than at one before it. -/
def State.accept (s : State) (i : HostInput) (ret : Word) : Option Result :=
  if s.ext.count ≠ 0 ∨ s.delay ≠ none then none
  else if i.debugBreak && !s.psr.me && !s.psr.de then some (.next (s.debugException ret))
  else s.interrupt i ret

/-- A boundary inside a multi-step instruction (R568): reset or an accepted event ends the instruction, with its own
address saved; `mark` is what the instruction records for its resumption. Otherwise the instruction goes on. DESIGN CHOICE
(log 22): an instruction ended here has not completed, so it is not one of the two instructions of the read hazard windows
(70_reset_and_hazards.md R642, R643), on which the spec is silent. -/
def State.innerBoundary (s : State) (mark : State → State) (k : State → Result) : Result :=
  let (i, t) := s.poll
  match i.reset with
  | some kind => .next (t.beginReset kind)
  | none =>
    match (mark t).accept i t.pc with
    | some r => r
    | none => k t

/-! ## Fetch (20_memory.md R87) -/

/-- The code at the pc: one halfword through Translate, in the data byte order (R87, D8). -/
def State.fetch (s : State) : Except Abort Half :=
  match s.translate .fetch s.pc with
  | none => .error .miss
  | some p => .ok (codeOfBytes s.params.bigEndian (s.byteAt p) (s.byteAt (p + 1)))

/-- A code has been fetched from physical address p: flagged when one of its bytes was stored since the prefetched codes
were last discarded (20_memory.md R104, D11; log 4). -/
def State.noteFetch (s : State) (p : Word) : State :=
  { s with staleFetch := s.staleFetch || s.stores.contains p || s.stores.contains (p + 1) }

/-- The state with the fetch at the pc recorded. -/
def State.fetched (s : State) : State :=
  match s.translate .fetch s.pc with
  | none => s
  | some p => s.noteFetch p

/-- The event accepted before the next instruction of a running core. -/
def State.boundaryEvent (s : State) (i : HostInput) : Option Result := s.accept i s.pc

/-- A halted or sleeping core at a boundary: an accepted interrupt wakes it, else nothing changes
(60_exceptions.md R600, 51_system_coproc.md R493, D16). -/
def State.idle (s : State) (i : HostInput) : Result :=
  match s.interrupt i s.pc with
  | some r => r
  | none => .next s

/-- The state with a code stored where the next fetch reads it. -/
def State.placeCode (s : State) (code : Half) : State :=
  s.physWrite .half ((s.translate .fetch s.pc).getD s.pc) (code.setWidth 32)

end Sys2Proof.Machine
end

