-- ==== Sys2Proof/Machine/Flags.lean ====
section
/-! DEFINITION. The arithmetic of the instructions and every flag computation: conditions, add and subtract,
logic, shifts and rotates, scan. Sums and differences are taken exactly and narrowed once. -/

namespace Sys2Proof.Machine

/-! ## Conditions (48_branch.md R392, 52_ext.md R531) -/

/-- Whether a condition is true of the C, V, Z, N of a PSR (R392, R531). -/
def holds (c : Cond) (p : Psr) : Bool :=
  match c with
  | .gt => !p.z && !(p.n ^^ p.v)
  | .ge => !(p.n ^^ p.v)
  | .lt => p.n ^^ p.v
  | .le => p.z || (p.n ^^ p.v)
  | .ugt => !p.z && !p.c
  | .uge => !p.c
  | .ult => p.c
  | .ule => p.z || p.c
  | .eq => p.z
  | .ne => !p.z

/-! ## Addition and subtraction (00_scope.md R9, 42_arith.md R250) -/

/-- The three outputs of `add32` and `sub32` (00_scope.md R9). -/
structure Arith where
  value : Word
  carry : Bool
  overflow : Bool
deriving DecidableEq, Repr

/-- `add32(a, b, cin)` (00_scope.md R9): C is the carry out of bit 31, V the signed overflow. -/
def add32 (a b : Word) (cin : Bool) : Arith :=
  let sum := a.toNat + b.toNat + cin.toNat
  let res := BitVec.ofNat 32 sum
  { value := res
    carry := decide (4294967296 ≤ sum)
    overflow := a.msb == b.msb && res.msb != a.msb }

/-- `sub32(a, b, bin)` (00_scope.md R9): C is the borrow, V the signed overflow. -/
def sub32 (a b : Word) (bin : Bool) : Arith :=
  let diff : Int := (a.toNat : Int) - (b.toNat : Int) - (bin.toNat : Int)
  let res := BitVec.ofInt 32 diff
  { value := res
    carry := decide (diff < 0)
    overflow := a.msb != b.msb && res.msb != a.msb }

/-- C, V, Z, N of an add, subtract or compare (42_arith.md R250). -/
def Psr.arith (p : Psr) (r : Arith) : Psr :=
  { p with c := r.carry, v := r.overflow, z := r.value == 0, n := r.value.msb }

/-! ## Logic (41_logic.md R230) -/

/-- N and Z of a logical result; V cleared only when OC = 1; C kept (R230). -/
def Psr.logic (p : Psr) (res : Word) : Psr :=
  { p with n := res.msb, z := res == 0, v := p.v && !p.oc }

/-! ## Shifts and rotates (45_shift.md R331, R332, R335) -/

/-- The six operations (45_shift.md R330). -/
inductive Shift where
  | srl | sll | sra | sla | rr | rl
deriving DecidableEq, Repr

/-- The shifted or rotated value, 0 ≤ n ≤ 31 (R335). -/
def shiftValue (op : Shift) (src : Word) (n : Nat) : Word :=
  match op with
  | .srl => src >>> n
  | .sra => src.sshiftRight n
  | .sll => src <<< n
  | .sla => src <<< n
  | .rr => if n = 0 then src else (src >>> n) ||| (src <<< (32 - n))
  | .rl => if n = 0 then src else (src <<< n) ||| (src >>> (32 - n))

/-- Whether an operation moves bits towards bit 0. -/
def goesRight (op : Shift) : Bool :=
  match op with
  | .srl => true
  | .sra => true
  | .rr => true
  | .sll => false
  | .sla => false
  | .rl => false

/-- The bit last shifted or rotated out; 0 for a count of 0 (R331, R335, D25). -/
def shiftedOut (op : Shift) (src : Word) (n : Nat) : Bool :=
  if n = 0 then false
  else if goesRight op then src.getLsbD (n - 1) else src.getLsbD (32 - n)

/-- SOR after the operation: the bits that left the register, next to where they left it; 0 for a count of 0
(R332, D25). -/
def shiftOutWord (op : Shift) (src : Word) (n : Nat) : Word :=
  if n = 0 then 0
  else if goesRight op then src <<< (32 - n) else src >>> (32 - n)

/-- Z and N of a shift; C and V only when SE = 1: C the bit shifted out, V = C xor N (R331). -/
def Psr.shift (p : Psr) (res : Word) (out : Bool) : Psr :=
  { p with
    z := res == 0
    n := res.msb
    c := if p.se then out else p.c
    v := if p.se then out ^^ res.msb else p.v }

/-! ## Postshift (42_arith.md R253) -/

/-- The result of an add or subtract shifted by 0 to 3 (R253). -/
def postshift (shift : Option (ShiftOp × BitVec 2)) (res : Word) : Word :=
  match shift with
  | none => res
  | some (.sra, n) => res.sshiftRight n.toNat
  | some (.srl, n) => res >>> n.toNat
  | some (.sll, n) => res <<< n.toNat

/-! ## Scan (49_misc.md R441) -/

/-- The first position from the most significant bit, out of `left`, that holds the target bit; positions count
from `i`, and the answer is the width when there is none (R441). -/
def scanFrom (target : Bool) (x : Word) : Nat → Nat → Nat
  | _, 0 => 0
  | i, left + 1 => if x.getLsbD (31 - i) == target then 0 else scanFrom target x (i + 1) left + 1

/-- The scan width: 32 when SW = 1, else 8 (R441). -/
def Psr.scanWidth (p : Psr) : Nat := if p.sw then 32 else 8

/-- `scan(t, x, w)` (R441). -/
def scan (target : Bool) (x : Word) (w : Nat) : Nat := scanFrom target x 0 w

/-- C set when nothing was found, Z when position 0 was, V and N cleared (R441). -/
def Psr.scanned (p : Psr) (n w : Nat) : Psr :=
  { p with c := n == w, v := false, z := n == 0, n := false }

end Sys2Proof.Machine
end

