-- ==== Sys2Proof/Machine/Operands.lean ====
section
/-! DEFINITION. The operand forms: how the pending prefixes change an immediate, a displacement, an increment or
a source register (52_ext.md R523 to R532). -/

namespace Sys2Proof.Machine

/-- The register of `ext %rs`, effective only when no immediate is pending (52_ext.md R532). -/
def Ext.effectiveReg (e : Ext) : Option Reg :=
  match e.imm with
  | [] => e.rs
  | _ => none

/-- The postshift of an instruction that also takes `ext %rs,op,imm2` (52_ext.md R530, first row). -/
def Ext.registerShift (e : Ext) : Option (ShiftOp × BitVec 2) := e.shift

/-- The postshift of an instruction that takes `ext op,imm2` only (52_ext.md R530, second row). -/
def Ext.immediateShift (e : Ext) : Option (ShiftOp × BitVec 2) :=
  match e.rs with
  | none => e.shift
  | some _ => none

/-- `ext_imm6`: the unsigned immediate, 6, 19 or 32 bits (52_ext.md R523). -/
def Ext.imm6 (e : Ext) (i : BitVec 6) : Word :=
  match e.imm with
  | [] => i.setWidth 32
  | [a] => (a ++ i).setWidth 32
  | a :: b :: _ => a ++ b ++ i

/-- `ext_sign6`: the signed immediate, 6, 19 or 32 bits (52_ext.md R524). -/
def Ext.sign6 (e : Ext) (i : BitVec 6) : Word :=
  match e.imm with
  | [] => i.signExtend 32
  | [a] => (a ++ i).signExtend 32
  | a :: b :: _ => a ++ b ++ i

/-- The pending immediates zero-extended: imm13 or imm26; none without any (52_ext.md R525, R526). -/
def Ext.zero13 (e : Ext) : Option Word :=
  match e.imm with
  | [] => none
  | [a] => some (a.setWidth 32)
  | a :: b :: _ => some ((a ++ b).setWidth 32)

/-- The pending immediates sign-extended: sign13 or sign26; none without any (52_ext.md R528). -/
def Ext.signed13 (e : Ext) : Option Word :=
  match e.imm with
  | [] => none
  | [a] => some (a.signExtend 32)
  | a :: b :: _ => some ((a ++ b).signExtend 32)

/-- `ext_disp` without its register row: the displacement of the bit operations (52_ext.md R525,
46_bitop.md R361). -/
def Ext.immDisp (e : Ext) : Word := e.zero13.getD 0

/-- `ext_disp`: the displacement of `[%rb]` in the loads and stores (52_ext.md R525). -/
def State.extDisp (s : State) : Word :=
  match s.ext.effectiveReg with
  | some r => s.reg r
  | none => s.ext.immDisp

/-- `ext_postinc`: what `[%rb]+` adds to its base (52_ext.md R528). -/
def State.postIncrement (s : State) (z : Size) : Word :=
  match s.ext.effectiveReg with
  | some r => s.reg r
  | none => s.ext.signed13.getD z.bytes

/-- The displacement of `[%sp+imm6]` and `[%dp+imm6]`: scaled by the size without a prefix, not scaled but with its
low bits forced to 0 with one (40_data_transfer.md R162, R163). -/
def Ext.baseDisp (e : Ext) (z : Size) (i : BitVec 6) : Word :=
  match e.imm with
  | [] => i.setWidth 32 * z.bytes
  | _ => e.imm6 i &&& ~~~(z.bytes - 1)

/-- The two sources of `add`, `sub`, `and`, `or`, `xor %rd,%rs`: three-operand with an immediate or a register prefix
(52_ext.md R526). -/
def State.sources (s : State) (rd rs : Reg) : Word × Word :=
  match s.ext.zero13 with
  | some i => (s.reg rs, i)
  | none =>
    match s.ext.rs with
    | some r => (s.reg rs, s.reg r)
    | none => (s.reg rd, s.reg rs)

/-- The two sources of `cmp %rd,%rs`: no register prefix (42_arith.md R264). -/
def State.sourcesImm (s : State) (rd rs : Reg) : Word × Word :=
  match s.ext.zero13 with
  | some i => (s.reg rs, i)
  | none => (s.reg rd, s.reg rs)

/-- The two sources of `adc` and `sbc`: no immediate prefix (42_arith.md R259, R263). -/
def State.sourcesReg (s : State) (rd rs : Reg) : Word × Word :=
  match s.ext.effectiveReg with
  | some r => (s.reg rs, s.reg r)
  | none => (s.reg rd, s.reg rs)

/-- The two sources of `add %rd,%dp` (42_arith.md R258). -/
def State.sourcesDp (s : State) (rd : Reg) : Word × Word :=
  match s.ext.zero13 with
  | some i => (s.dp, i)
  | none =>
    match s.ext.rs with
    | some r => (s.dp, s.reg r)
    | none => (s.reg rd, s.dp)

/-- The value a shift or rotate shifts: the register of `ext %rs` or rd (45_shift.md R333). -/
def State.shiftSource (s : State) (rd : Reg) : Word :=
  match s.ext.effectiveReg with
  | some r => s.reg r
  | none => s.reg rd

/-- The count in a register: its 5 low-order bits (45_shift.md R333). -/
def State.shiftCount (s : State) (rs : Reg) : Nat := (s.reg rs).toNat % 32

/-- `ext_sign8`: the displacement of a relative branch, sign9, sign22 or sign32 (48_branch.md R391,
52_ext.md R527). -/
def Ext.sign8 (e : Ext) (i : BitVec 8) : Word :=
  match e.imm with
  | [] => (i ++ 0#1).signExtend 32
  | [a] => (a ++ i ++ 0#1).signExtend 32
  | a :: b :: _ => a.extractLsb' 3 10 ++ b ++ i ++ 0#1

/-! ## Special registers as sources: the read hazards (70_reset_and_hazards.md R642, R643) -/

/-- PSR as read by `ld.w %rd,%psr` and `pushs %psr`: within two instructions after `div0s` or `div0u` bit 6 is a free
value, every other bit is exact (R642, D32). -/
def State.readPsr (s : State) : Word × State :=
  if s.dsWindow = 0 then (s.psr.toWord, s)
  else
    let (w, t) := s.draw
    ((s.psr.toWord &&& 0xFFFFFFBF#32) ||| (w &&& 0x00000040#32), t)

/-- The value of special register n read as a source: PSR with its hazard, a free value for number 12
(10_state.md R48), else the register (40_data_transfer.md R176). -/
def State.readSpecial (s : State) (n : SReg) : Word × State :=
  if n = 0#4 then s.readPsr
  else
    match s.special n with
    | some v => (v, s)
    | none => s.draw

end Sys2Proof.Machine
end

