-- ==== Sys2Proof/Machine/Control.lean ====
section
/-! DEFINITION. What surrounds every meaning: where an instruction may stand, the condition of `ext cond`, the
completion of an instruction with the loop and repeat check, delayed branches, and the prefix record. -/

namespace Sys2Proof.Machine

/-! ## Where an instruction may stand -/

/-- Where in a `loop` range an instruction may stand (50_loop_repeat.md R472). -/
inductive LoopEnd where
  /-- anywhere, LEA included -/
  | anywhere
  /-- not at LEA: list (c) -/
  | notLast
  /-- neither at LEA nor at LEA - 2: list (d) -/
  | notLastTwo
deriving DecidableEq, Repr

/-- The placement properties the manual gives an instruction. -/
structure Placement where
  /-- may stand in a delay slot (48_branch.md R396) -/
  slot : Bool
  /-- may be the target of a repeat (50_loop_repeat.md R476) -/
  repeatable : Bool
  /-- where it may stand in a loop range (50_loop_repeat.md R472) -/
  loopEnd : LoopEnd
  /-- `ext cond` is valid on it (52_ext.md R531) -/
  conditional : Bool
deriving DecidableEq, Repr

/-- A register instruction of the delay slot list (R396). -/
def slotWorthy : Placement := ⟨true, true, .anywhere, true⟩

/-- An instruction with no restriction but the delay slot. -/
def ordinary : Placement := ⟨false, true, .anywhere, true⟩

/-- An unrepeatable instruction that `ext cond` can skip (R476). -/
def once : Placement := ⟨false, false, .anywhere, true⟩

/-- The returns, `repeat` and `loop` (R472 a, R476, R531). -/
def control : Placement := ⟨false, false, .anywhere, false⟩

/-- A plain branch, `int`, `brk`, `slp`, `halt` (R472 c, R476, R531). -/
def plainBranch : Placement := ⟨false, false, .notLast, false⟩

/-- A branch by its d bit: the delayed forms are list (d) of R472. -/
def branchPlacement (d : Bool) : Placement := ⟨false, false, if d then .notLastTwo else .notLast, false⟩

/-- A prefix (R472 c, R476, 52_ext.md R535). -/
def extension : Placement := ⟨false, false, .notLast, false⟩

/-- The placement properties of every instruction (48_branch.md R396, 50_loop_repeat.md R472 and R476,
52_ext.md R531). -/
def placement (i : Instr) : Placement :=
  match i with
  | .nop => once
  | .slp => plainBranch
  | .halt => plainBranch
  | .pushn _ => once
  | .popn _ => once
  | .jpr d _ => branchPlacement d
  | .brk => plainBranch
  | .retd => control
  | .int _ => plainBranch
  | .reti => control
  | .callReg d _ => branchPlacement d
  | .ret _ => control
  | .jpReg d _ => branchPlacement d
  | .retm => control
  | .push _ => ordinary
  | .pop _ => ordinary
  | .pushs _ => once
  | .pops _ => once
  | .macW _ => once
  | .macHw _ => once
  | .macclr => slotWorthy
  | .ldCf => slotWorthy
  | .divuW _ => once
  | .divW _ => once
  | .repeatReg _ => control
  | .repeatImm _ => control
  | .addDp _ => slotWorthy
  | .jrgt d _ => branchPlacement d
  | .jrge d _ => branchPlacement d
  | .jrlt d _ => branchPlacement d
  | .jrle d _ => branchPlacement d
  | .jrugt d _ => branchPlacement d
  | .jruge d _ => branchPlacement d
  | .jrult d _ => branchPlacement d
  | .jrule d _ => branchPlacement d
  | .jreq d _ => branchPlacement d
  | .jrne d _ => branchPlacement d
  | .callRel d _ => branchPlacement d
  | .jpRel d _ => branchPlacement d
  | .ldbInd _ _ => ordinary
  | .ldbInc _ _ => ordinary
  | .ldubInd _ _ => ordinary
  | .ldubInc _ _ => ordinary
  | .ldhInd _ _ => ordinary
  | .ldhInc _ _ => ordinary
  | .lduhInd _ _ => ordinary
  | .lduhInc _ _ => ordinary
  | .ldwInd _ _ => ordinary
  | .ldwInc _ _ => ordinary
  | .stbInd _ _ => ordinary
  | .stbInc _ _ => ordinary
  | .sthInd _ _ => ordinary
  | .sthInc _ _ => ordinary
  | .stwInd _ _ => ordinary
  | .stwInc _ _ => ordinary
  | .addReg _ _ => slotWorthy
  | .subReg _ _ => slotWorthy
  | .cmpReg _ _ => slotWorthy
  | .ldwReg _ _ => slotWorthy
  | .andReg _ _ => slotWorthy
  | .orReg _ _ => slotWorthy
  | .xorReg _ _ => slotWorthy
  | .notReg _ _ => slotWorthy
  | .srlHigh _ _ => slotWorthy
  | .sllHigh _ _ => slotWorthy
  | .sraHigh _ _ => slotWorthy
  | .slaHigh _ _ => slotWorthy
  | .rrHigh _ _ => slotWorthy
  | .rlHigh _ _ => slotWorthy
  | .extSra _ => extension
  | .extSrl _ => extension
  | .extSll _ => extension
  | .extGt => extension
  | .extGe => extension
  | .extLt => extension
  | .extLe => extension
  | .extUgt => extension
  | .extUge => extension
  | .extUlt => extension
  | .extUle => extension
  | .extEq => extension
  | .extNe => extension
  | .extReg _ => extension
  | .extRegSra _ _ => extension
  | .extRegSrl _ _ => extension
  | .extRegSll _ _ => extension
  | .ldbSp _ _ => ordinary
  | .ldubSp _ _ => ordinary
  | .ldhSp _ _ => ordinary
  | .lduhSp _ _ => ordinary
  | .ldwSp _ _ => ordinary
  | .stbSp _ _ => ordinary
  | .sthSp _ _ => ordinary
  | .stwSp _ _ => ordinary
  | .ldbDp _ _ => ordinary
  | .ldubDp _ _ => ordinary
  | .ldhDp _ _ => ordinary
  | .lduhDp _ _ => ordinary
  | .ldwDp _ _ => ordinary
  | .stbDp _ _ => ordinary
  | .sthDp _ _ => ordinary
  | .stwDp _ _ => ordinary
  | .addImm _ _ => slotWorthy
  | .subImm _ _ => slotWorthy
  | .cmpImm _ _ => slotWorthy
  | .ldwImm _ _ => slotWorthy
  | .andImm _ _ => slotWorthy
  | .orImm _ _ => slotWorthy
  | .xorImm _ _ => slotWorthy
  | .notImm _ _ => slotWorthy
  | .addSp _ => slotWorthy
  | .subSp _ => slotWorthy
  | .srlLow _ _ => slotWorthy
  | .srlReg _ _ => slotWorthy
  | .sllLow _ _ => slotWorthy
  | .sllReg _ _ => slotWorthy
  | .sraLow _ _ => slotWorthy
  | .sraReg _ _ => slotWorthy
  | .slaLow _ _ => slotWorthy
  | .slaReg _ _ => slotWorthy
  | .rrLow _ _ => slotWorthy
  | .rrReg _ _ => slotWorthy
  | .rlLow _ _ => slotWorthy
  | .rlReg _ _ => slotWorthy
  | .scan0 _ _ => slotWorthy
  | .scan1 _ _ => slotWorthy
  | .swap _ _ => slotWorthy
  | .mirror _ _ => slotWorthy
  | .swaph _ _ => slotWorthy
  | .satB _ _ => slotWorthy
  | .div0s _ => ordinary
  | .div0u _ => ordinary
  | .div1 _ => ordinary
  | .div2s _ => ordinary
  | .div3s => ordinary
  | .satUb _ _ => slotWorthy
  | .ldwSd _ _ => slotWorthy
  | .ldbReg _ _ => slotWorthy
  | .mltH _ _ => slotWorthy
  | .mltHw _ _ => ordinary
  | .ldwSs _ _ => slotWorthy
  | .ldubReg _ _ => slotWorthy
  | .mltuH _ _ => slotWorthy
  | .mac1H _ _ => ordinary
  | .btst _ _ => ordinary
  | .ldhReg _ _ => slotWorthy
  | .mltW _ _ => ordinary
  | .mac1Hw _ _ => ordinary
  | .bclr _ _ => ordinary
  | .lduhReg _ _ => slotWorthy
  | .mltuW _ _ => ordinary
  | .bset _ _ => ordinary
  | .ldcRead _ _ => slotWorthy
  | .mac _ => once
  | .mac1W _ _ => ordinary
  | .bnot _ _ => ordinary
  | .ldcWrite _ _ => slotWorthy
  | .satH _ _ => slotWorthy
  | .satUh _ _ => slotWorthy
  | .adc _ _ => slotWorthy
  | .loopReg _ _ => control
  | .loopRegImm _ _ => control
  | .loopImm _ _ => control
  | .sbc _ _ => slotWorthy
  | .satW _ _ => slotWorthy
  | .satUw _ _ => slotWorthy
  | .doC _ => ordinary
  | .psrset _ => slotWorthy
  | .psrclr _ => slotWorthy
  | .extImm _ => extension

/-- The stop an instruction meets because of where it stands: in a delay slot (48_branch.md R397), at LSA of a
running repeat, at the end of a running loop (50_loop_repeat.md R481 a, b). -/
def State.misplaced (s : State) (i : Instr) : Option Fault :=
  let p := placement i
  let last := evenAddress s.lea
  if s.delay.isSome && !p.slot then some .prohibitedDelaySlot
  else if s.psr.rm && s.pc == evenAddress s.lsa && !p.repeatable then some .unrepeatableAtLsa
  else if s.psr.lm && ((s.pc == last && p.loopEnd != .anywhere) ||
      (s.pc == last - 2 && p.loopEnd == .notLastTwo)) then some .forbiddenAtLoopEnd
  else none

/-- Whether `ext cond` skips the instruction: its condition is true and is valid on it (52_ext.md R531). -/
def State.skips (s : State) (i : Instr) : Bool :=
  (placement i).conditional &&
    match s.ext.cond with
    | some c => holds c s.psr
    | none => false

/-! ## Completing an instruction -/

/-- The redirection after the instruction at address a has completed: a running repeat, else a running loop, else the
instruction's own next address (50_loop_repeat.md R465, R475, R480). -/
def State.redirect (s : State) (a npc : Word) : State :=
  if s.psr.rm && a == evenAddress s.lsa then
    if s.lco = 0 then { s with psr := { s.psr with rm := false }, pc := a + 2 }
    else { s with lco := s.lco - 1, pc := a }
  else if s.psr.lm && a == evenAddress s.lea then
    if s.lco = 0 then { s with psr := { s.psr with lm := false }, pc := a + 2 }
    else { s with lco := s.lco - 1, pc := evenAddress s.lsa }
  else { s with pc := npc }

/-- An instruction has executed: the prefixes are used up (52_ext.md R521), and the read hazard windows are one
instruction shorter (70_reset_and_hazards.md R642, R643). -/
def State.retire (s : State) : State :=
  { s with ext := Ext.empty, dsWindow := s.dsWindow - 1, macWindow := s.macWindow - 1 }

/-- An instruction completes with its own next address npc. In a delay slot the branch before it decides where to go on
(48_branch.md R394); the loop and repeat check comes last (50_loop_repeat.md R480). -/
def State.complete (s : State) (npc : Word) : State :=
  ({ s.retire with delay := none } : State).redirect s.pc (s.delay.getD npc)

/-- An instruction completes and goes on at the next code (10_state.md R25). -/
def State.done (s : State) : Result := .next (s.complete (s.pc + 2))

/-- A delayed branch completes: the slot comes next, and then the address given (48_branch.md R394). -/
def State.completeDelayed (s : State) (after : Word) : State :=
  { s.retire with pc := s.pc + 2, delay := some after }

/-- A branch completes, plain or delayed, taken or not (48_branch.md R393, R394); a plain one that is taken discards the
prefetched codes (20_memory.md R104). -/
def State.branch (s : State) (d taken : Bool) (target : Word) : Result :=
  if d then .next (s.completeDelayed (if taken then target else s.pc + 4))
  else if taken then .next (s.discardPrefetch.complete target)
  else .next (s.complete (s.pc + 2))

/-- Runs an instruction's own effect, unless it stands where it may not, or `ext cond` skips it: then nothing changes
but what completion changes (52_ext.md R531). -/
def State.issue (s : State) (i : Instr) (effect : State → Result) : Result :=
  match s.misplaced i with
  | some f => .fault f
  | none => if s.skips i then s.done else effect s

/-! ## The prefix record (52_ext.md R521, R522) -/

/-- The record with one more prefix counted, at address a (R522). -/
def Ext.begun (e : Ext) (a : Word) : Ext :=
  { e with start := if e.count = 0 then some a else e.start, count := e.count + 1 }

/-- `ext imm13`: a third or later immediate replaces the second (R522). Illegal after `ext %rs`, unless it is the
printed series with a postshift and no condition (R532). -/
def Ext.addImm (e : Ext) (a : Word) (i : BitVec 13) : Option Ext :=
  let legal := e.rs.isNone || (e.shift.isSome && e.cond.isNone)
  let imm := match e.imm with
    | [] => [i]
    | x :: _ => [x, i]
  if legal then some { e.begun a with imm := imm } else none

/-- Whether a register or shift prefix may come now: after nothing but `ext cond` (R522). -/
def Ext.takesOperand (e : Ext) : Bool := e.imm.isEmpty && e.rs.isNone && e.shift.isNone

/-- `ext %rs` (R522). -/
def Ext.addReg (e : Ext) (a : Word) (r : Reg) : Option Ext :=
  if e.takesOperand then some { e.begun a with rs := some r } else none

/-- `ext %rs,op,imm2` (R522). -/
def Ext.addRegShift (e : Ext) (a : Word) (r : Reg) (op : ShiftOp) (n : BitVec 2) : Option Ext :=
  if e.takesOperand then some { e.begun a with rs := some r, shift := some (op, n) } else none

/-- `ext op,imm2` (R522). -/
def Ext.addShift (e : Ext) (a : Word) (op : ShiftOp) (n : BitVec 2) : Option Ext :=
  if e.takesOperand then some { e.begun a with shift := some (op, n) } else none

/-- `ext cond`: the first prefix of its series (R522). -/
def Ext.addCond (e : Ext) (a : Word) (c : Cond) : Option Ext :=
  if e.count = 0 then some { e.begun a with cond := some c } else none

/-- A prefix executes: the record changes and the next code follows, or the series is one the manual does not list
(R521, R522, D12). -/
def State.takePrefixRecord (s : State) (e : Option Ext) : Result :=
  match e with
  | some e => .next { s with ext := e, pc := s.pc + 2 }
  | none => .fault .illegalExtSeries

end Sys2Proof.Machine
end

