-- ==== Sys2Proof/Machine/Transfer.lean ====
section
/-! DEFINITION. Data transfer: `ld.b`, `ld.ub`, `ld.h`, `ld.uh`, `ld.w` in every form (40_data_transfer.md). -/

namespace Sys2Proof.Machine

/-- A loaded value sign- or zero-extended from its size to 32 bits (20_memory.md R82). -/
def extendTo (z : Size) (signed : Bool) (v : Word) : Word :=
  match z with
  | .word => v
  | .byte => if signed then (v.setWidth 8).signExtend 32 else (v.setWidth 8).setWidth 32
  | .half => if signed then (v.setWidth 16).signExtend 32 else (v.setWidth 16).setWidth 32

/-- A load through `[%rb]` (40_data_transfer.md R161, R165): alignment is checked on the final address. -/
def State.loadIndirect (s : State) (z : Size) (signed : Bool) (rd rb : Reg) : Result :=
  s.orAbort (s.memRead z (s.reg rb + s.extDisp)) fun v => (s.setReg rd (extendTo z signed v)).done

/-- A load through `[%rb]+` (R164): the base is updated after the destination, so with rd = rb the incremented
address stays. -/
def State.loadIncrement (s : State) (z : Size) (signed : Bool) (rd rb : Reg) : Result :=
  s.orAbort (s.memRead z (s.reg rb)) fun v =>
    ((s.setReg rd (extendTo z signed v)).setReg rb (s.reg rb + s.postIncrement z)).done

/-- A load through `[%sp+imm6]` or `[%dp+imm6]` with the given base (R162, R163): never misaligned. -/
def State.loadBase (s : State) (z : Size) (signed : Bool) (base : Word) (rd : Reg) (imm6 : BitVec 6) : Result :=
  s.orAbort (s.load z (base + s.ext.baseDisp z imm6)) fun v => (s.setReg rd (extendTo z signed v)).done

/-- A store through `[%rb]` of the low bits of rs (R161, 20_memory.md R83). -/
def State.storeIndirect (s : State) (z : Size) (rb rs : Reg) : Result :=
  s.orAbort (s.memWrite z (s.reg rb + s.extDisp) (s.reg rs)) State.done

/-- A store through `[%rb]+` (R164): the value stored is the register's before the increment. -/
def State.storeIncrement (s : State) (z : Size) (rb rs : Reg) : Result :=
  s.orAbort (s.memWrite z (s.reg rb) (s.reg rs)) fun t => (t.setReg rb (s.reg rb + s.postIncrement z)).done

/-- A store through `[%sp+imm6]` or `[%dp+imm6]` with the given base (R162, R163): never misaligned. -/
def State.storeBase (s : State) (z : Size) (base : Word) (imm6 : BitVec 6) (rs : Reg) : Result :=
  s.orAbort (s.store z (base + s.ext.baseDisp z imm6) (s.reg rs)) State.done

/-- A write of a register and nothing else. -/
def State.put (s : State) (rd : Reg) (v : Word) : Result := (s.setReg rd v).done

/-- Reading AHR, ALR or PSR while the `macclr` window is open stops the machine (70_reset_and_hazards.md R643, D32). DESIGN
CHOICE (log 22): reading the mirrors R4 with LC = 1 or R5 with HC = 1 there is no hazard and gives the cleared value; R643
says "presumably R4/R5 likewise (not stated)". -/
def State.macclrHazard (s : State) (n : SReg) : Bool :=
  decide (0 < s.macWindow) && (n == 0#4 || n == 2#4 || n == 3#4)

/-- Writing LCO, LSA or LEA while a loop uses it, LCO or LSA while a repeat does (50_loop_repeat.md R481 c). -/
def State.loopWriteHazard (s : State) (n : SReg) : Bool :=
  (s.psr.lm && (n == 4#4 || n == 5#4 || n == 6#4)) || (s.psr.rm && (n == 4#4 || n == 5#4))

/-- `ld.b %rd,%rs` (R170): sign-extends a byte of rs. -/
def execLdbReg (rd rs : Reg) (s : State) : Result :=
  s.issue (.ldbReg rd rs) fun s => s.put rd (extendTo .byte true (s.reg rs))

/-- `ld.ub %rd,%rs` (R171): zero-extends a byte of rs. -/
def execLdubReg (rd rs : Reg) (s : State) : Result :=
  s.issue (.ldubReg rd rs) fun s => s.put rd (extendTo .byte false (s.reg rs))

/-- `ld.h %rd,%rs` (R172): sign-extends a halfword of rs. -/
def execLdhReg (rd rs : Reg) (s : State) : Result :=
  s.issue (.ldhReg rd rs) fun s => s.put rd (extendTo .half true (s.reg rs))

/-- `ld.uh %rd,%rs` (R173): zero-extends a halfword of rs. -/
def execLduhReg (rd rs : Reg) (s : State) : Result :=
  s.issue (.lduhReg rd rs) fun s => s.put rd (extendTo .half false (s.reg rs))

/-- `ld.w %rd,%rs` (R174): rs to rd. -/
def execLdwReg (rd rs : Reg) (s : State) : Result :=
  s.issue (.ldwReg rd rs) fun s => s.put rd (s.reg rs)

/-- `ld.w %rd,sign6` (R175): a signed immediate of 6, 19 or 32 bits. -/
def execLdwImm (rd : Reg) (sign6 : BitVec 6) (s : State) : Result :=
  s.issue (.ldwImm rd sign6) fun s => s.put rd (s.ext.sign6 sign6)

/-- `ld.w %rd,%ss` (R176): a special register to rd, with the read hazards of PSR, ALR and AHR. -/
def execLdwSs (rd : Reg) (ss : SReg) (s : State) : Result :=
  s.issue (.ldwSs rd ss) fun s =>
    if s.macclrHazard ss then .fault .macclrHazard
    else
      let (v, t) := s.readSpecial ss
      t.put rd v

/-- `ld.w %sd,%rs` (R177): rs to a special register; naming SP lifts the NMI mask of reset (60_exceptions.md R584). -/
def execLdwSd (sd : SReg) (rs : Reg) (s : State) : Result :=
  s.issue (.ldwSd sd rs) fun s =>
    if s.loopWriteHazard sd then .fault .loopRegisterWrite
    else
      let t := s.setSpecial sd (s.reg rs)
      ({ t with nmiMasked := t.nmiMasked && sd != 1#4 } : State).done

/-- `ld.b %rd,[%rb]` (R180): loads and sign-extends a byte. -/
def execLdbInd (rd rb : Reg) (s : State) : Result :=
  s.issue (.ldbInd rd rb) fun s => s.loadIndirect .byte true rd rb

/-- `ld.b %rd,[%rb]+` (R181): the same, then the base is incremented. -/
def execLdbInc (rd rb : Reg) (s : State) : Result :=
  s.issue (.ldbInc rd rb) fun s => s.loadIncrement .byte true rd rb

/-- `ld.b %rd,[%sp+imm6]` (R182): the same from the stack pointer of the mode. -/
def execLdbSp (rd : Reg) (imm6 : BitVec 6) (s : State) : Result :=
  s.issue (.ldbSp rd imm6) fun s => s.loadBase .byte true s.sp rd imm6

/-- `ld.b %rd,[%dp+imm6]` (R183): the same from DP. -/
def execLdbDp (rd : Reg) (imm6 : BitVec 6) (s : State) : Result :=
  s.issue (.ldbDp rd imm6) fun s => s.loadBase .byte true s.dp rd imm6

/-- `ld.ub %rd,[%rb]` (R184): loads and zero-extends a byte. -/
def execLdubInd (rd rb : Reg) (s : State) : Result :=
  s.issue (.ldubInd rd rb) fun s => s.loadIndirect .byte false rd rb

/-- `ld.ub %rd,[%rb]+` (R185): the same, then the base is incremented. -/
def execLdubInc (rd rb : Reg) (s : State) : Result :=
  s.issue (.ldubInc rd rb) fun s => s.loadIncrement .byte false rd rb

/-- `ld.ub %rd,[%sp+imm6]` (R186): the same from the stack pointer of the mode. -/
def execLdubSp (rd : Reg) (imm6 : BitVec 6) (s : State) : Result :=
  s.issue (.ldubSp rd imm6) fun s => s.loadBase .byte false s.sp rd imm6

/-- `ld.ub %rd,[%dp+imm6]` (R187): the same from DP. -/
def execLdubDp (rd : Reg) (imm6 : BitVec 6) (s : State) : Result :=
  s.issue (.ldubDp rd imm6) fun s => s.loadBase .byte false s.dp rd imm6

/-- `ld.h %rd,[%rb]` (R188): loads and sign-extends a halfword. -/
def execLdhInd (rd rb : Reg) (s : State) : Result :=
  s.issue (.ldhInd rd rb) fun s => s.loadIndirect .half true rd rb

/-- `ld.h %rd,[%rb]+` (R189): the same, then the base is incremented. -/
def execLdhInc (rd rb : Reg) (s : State) : Result :=
  s.issue (.ldhInc rd rb) fun s => s.loadIncrement .half true rd rb

/-- `ld.h %rd,[%sp+imm6]` (R190): the same from the stack pointer of the mode. -/
def execLdhSp (rd : Reg) (imm6 : BitVec 6) (s : State) : Result :=
  s.issue (.ldhSp rd imm6) fun s => s.loadBase .half true s.sp rd imm6

/-- `ld.h %rd,[%dp+imm6]` (R191): the same from DP. -/
def execLdhDp (rd : Reg) (imm6 : BitVec 6) (s : State) : Result :=
  s.issue (.ldhDp rd imm6) fun s => s.loadBase .half true s.dp rd imm6

/-- `ld.uh %rd,[%rb]` (R192): loads and zero-extends a halfword. -/
def execLduhInd (rd rb : Reg) (s : State) : Result :=
  s.issue (.lduhInd rd rb) fun s => s.loadIndirect .half false rd rb

/-- `ld.uh %rd,[%rb]+` (R193): the same, then the base is incremented. -/
def execLduhInc (rd rb : Reg) (s : State) : Result :=
  s.issue (.lduhInc rd rb) fun s => s.loadIncrement .half false rd rb

/-- `ld.uh %rd,[%sp+imm6]` (R194): the same from the stack pointer of the mode. -/
def execLduhSp (rd : Reg) (imm6 : BitVec 6) (s : State) : Result :=
  s.issue (.lduhSp rd imm6) fun s => s.loadBase .half false s.sp rd imm6

/-- `ld.uh %rd,[%dp+imm6]` (R195): the same from DP. -/
def execLduhDp (rd : Reg) (imm6 : BitVec 6) (s : State) : Result :=
  s.issue (.lduhDp rd imm6) fun s => s.loadBase .half false s.dp rd imm6

/-- `ld.w %rd,[%rb]` (R196): loads a word. -/
def execLdwInd (rd rb : Reg) (s : State) : Result :=
  s.issue (.ldwInd rd rb) fun s => s.loadIndirect .word true rd rb

/-- `ld.w %rd,[%rb]+` (R197): the same, then the base is incremented. -/
def execLdwInc (rd rb : Reg) (s : State) : Result :=
  s.issue (.ldwInc rd rb) fun s => s.loadIncrement .word true rd rb

/-- `ld.w %rd,[%sp+imm6]` (R198): the same from the stack pointer of the mode. -/
def execLdwSp (rd : Reg) (imm6 : BitVec 6) (s : State) : Result :=
  s.issue (.ldwSp rd imm6) fun s => s.loadBase .word true s.sp rd imm6

/-- `ld.w %rd,[%dp+imm6]` (R199): the same from DP. -/
def execLdwDp (rd : Reg) (imm6 : BitVec 6) (s : State) : Result :=
  s.issue (.ldwDp rd imm6) fun s => s.loadBase .word true s.dp rd imm6

/-- `ld.b [%rb],%rs` (R200): stores the low bits of rs. -/
def execStbInd (rb rs : Reg) (s : State) : Result :=
  s.issue (.stbInd rb rs) fun s => s.storeIndirect .byte rb rs

/-- `ld.b [%rb]+,%rs` (R201): the same, then the base is incremented. -/
def execStbInc (rb rs : Reg) (s : State) : Result :=
  s.issue (.stbInc rb rs) fun s => s.storeIncrement .byte rb rs

/-- `ld.b [%sp+imm6],%rs` (R202): the same from the stack pointer of the mode. -/
def execStbSp (imm6 : BitVec 6) (rs : Reg) (s : State) : Result :=
  s.issue (.stbSp imm6 rs) fun s => s.storeBase .byte s.sp imm6 rs

/-- `ld.b [%dp+imm6],%rs` (R203): the same from DP. -/
def execStbDp (imm6 : BitVec 6) (rs : Reg) (s : State) : Result :=
  s.issue (.stbDp imm6 rs) fun s => s.storeBase .byte s.dp imm6 rs

/-- `ld.h [%rb],%rs` (R204): stores the low bits of rs. -/
def execSthInd (rb rs : Reg) (s : State) : Result :=
  s.issue (.sthInd rb rs) fun s => s.storeIndirect .half rb rs

/-- `ld.h [%rb]+,%rs` (R205): the same, then the base is incremented. -/
def execSthInc (rb rs : Reg) (s : State) : Result :=
  s.issue (.sthInc rb rs) fun s => s.storeIncrement .half rb rs

/-- `ld.h [%sp+imm6],%rs` (R206): the same from the stack pointer of the mode. -/
def execSthSp (imm6 : BitVec 6) (rs : Reg) (s : State) : Result :=
  s.issue (.sthSp imm6 rs) fun s => s.storeBase .half s.sp imm6 rs

/-- `ld.h [%dp+imm6],%rs` (R207): the same from DP. -/
def execSthDp (imm6 : BitVec 6) (rs : Reg) (s : State) : Result :=
  s.issue (.sthDp imm6 rs) fun s => s.storeBase .half s.dp imm6 rs

/-- `ld.w [%rb],%rs` (R208): stores the low bits of rs. -/
def execStwInd (rb rs : Reg) (s : State) : Result :=
  s.issue (.stwInd rb rs) fun s => s.storeIndirect .word rb rs

/-- `ld.w [%rb]+,%rs` (R209): the same, then the base is incremented. -/
def execStwInc (rb rs : Reg) (s : State) : Result :=
  s.issue (.stwInc rb rs) fun s => s.storeIncrement .word rb rs

/-- `ld.w [%sp+imm6],%rs` (R210): the same from the stack pointer of the mode. -/
def execStwSp (imm6 : BitVec 6) (rs : Reg) (s : State) : Result :=
  s.issue (.stwSp imm6 rs) fun s => s.storeBase .word s.sp imm6 rs

/-- `ld.w [%dp+imm6],%rs` (R211): the same from DP. -/
def execStwDp (imm6 : BitVec 6) (rs : Reg) (s : State) : Result :=
  s.issue (.stwDp imm6 rs) fun s => s.storeBase .word s.dp imm6 rs

end Sys2Proof.Machine
end

