-- ==== Sys2Proof/Machine/Arithmetic.lean ====
section
/-! DEFINITION. Addition, subtraction, comparison (42_arith.md). -/

namespace Sys2Proof.Machine

/-- Writes the shifted result of an add or subtract and the flags of the unshifted one (42_arith.md R250, R253). -/
def State.putArith (s : State) (rd : Reg) (shift : Option (ShiftOp × BitVec 2)) (r : Arith) : Result :=
  ({ s.setReg rd (postshift shift r.value) with psr := s.psr.arith r } : State).done

/-- Sets the flags of a comparison and writes no register (42_arith.md R264, R265). -/
def State.compare (s : State) (a b : Word) : Result :=
  ({ s with psr := s.psr.arith (sub32 a b false) } : State).done

/-- `add %rd,%rs` (R255): with the three-operand forms and the postshift. -/
def execAddReg (rd rs : Reg) (s : State) : Result :=
  s.issue (.addReg rd rs) fun s =>
    let (a, b) := s.sources rd rs
    s.putArith rd s.ext.registerShift (add32 a b false)

/-- `add %rd,imm6` (R256): an unsigned immediate; postshift by `ext op,imm2` only. -/
def execAddImm (rd : Reg) (imm6 : BitVec 6) (s : State) : Result :=
  s.issue (.addImm rd imm6) fun s => s.putArith rd s.ext.immediateShift (add32 (s.reg rd) (s.ext.imm6 imm6) false)

/-- `add %sp,imm10` (R257): four times the immediate added to SP; no flag changes. -/
def execAddSp (imm10 : BitVec 10) (s : State) : Result :=
  s.issue (.addSp imm10) fun s => (s.setSp (postshift s.ext.immediateShift (s.sp + imm10.setWidth 32 * 4))).done

/-- `add %rd,%dp` (R258): DP as an operand; no flag changes. -/
def execAddDp (rd : Reg) (s : State) : Result :=
  s.issue (.addDp rd) fun s =>
    let (a, b) := s.sourcesDp rd
    s.put rd (postshift s.ext.registerShift (a + b))

/-- `adc %rd,%rs` (R259): addition with the carry before the instruction. -/
def execAdc (rd rs : Reg) (s : State) : Result :=
  s.issue (.adc rd rs) fun s =>
    let (a, b) := s.sourcesReg rd rs
    s.putArith rd s.ext.registerShift (add32 a b s.psr.c)

/-- `sub %rd,%rs` (R260): with the three-operand forms and the postshift; C is the borrow. -/
def execSubReg (rd rs : Reg) (s : State) : Result :=
  s.issue (.subReg rd rs) fun s =>
    let (a, b) := s.sources rd rs
    s.putArith rd s.ext.registerShift (sub32 a b false)

/-- `sub %rd,imm6` (R261): an unsigned immediate; postshift by `ext op,imm2` only. -/
def execSubImm (rd : Reg) (imm6 : BitVec 6) (s : State) : Result :=
  s.issue (.subImm rd imm6) fun s => s.putArith rd s.ext.immediateShift (sub32 (s.reg rd) (s.ext.imm6 imm6) false)

/-- `sub %sp,imm10` (R262): four times the immediate subtracted from SP; no flag changes. -/
def execSubSp (imm10 : BitVec 10) (s : State) : Result :=
  s.issue (.subSp imm10) fun s => (s.setSp (postshift s.ext.immediateShift (s.sp - imm10.setWidth 32 * 4))).done

/-- `sbc %rd,%rs` (R263): subtraction with the borrow before the instruction. -/
def execSbc (rd rs : Reg) (s : State) : Result :=
  s.issue (.sbc rd rs) fun s =>
    let (a, b) := s.sourcesReg rd rs
    s.putArith rd s.ext.registerShift (sub32 a b s.psr.c)

/-- `cmp %rd,%rs` (R264): flags of the difference, no register written; a register prefix has no effect. -/
def execCmpReg (rd rs : Reg) (s : State) : Result :=
  s.issue (.cmpReg rd rs) fun s =>
    let (a, b) := s.sourcesImm rd rs
    s.compare a b

/-- `cmp %rd,sign6` (R265): flags of the difference with a signed immediate. -/
def execCmpImm (rd : Reg) (sign6 : BitVec 6) (s : State) : Result :=
  s.issue (.cmpImm rd sign6) fun s => s.compare (s.reg rd) (s.ext.sign6 sign6)

end Sys2Proof.Machine
end

