-- ==== Sys2Proof/Machine/BitOps.lean ====
section
/-! DEFINITION. Bit operations on a byte of memory (46_bitop.md). -/

namespace Sys2Proof.Machine

/-- The address of a bit operation: a register prefix has no effect on it (46_bitop.md R361). -/
def State.bitAddress (s : State) (rb : Reg) : Word := s.reg rb + s.ext.immDisp

/-- One bit of a byte as a mask. -/
def bitMask (imm3 : BitVec 3) : Word := 1#32 <<< imm3.toNat

/-- A byte read and rewritten at the same address (46_bitop.md R362). -/
def State.rewriteByte (s : State) (rb : Reg) (f : Word → Word) : Result :=
  let a := s.bitAddress rb
  s.orAbort (s.load .byte a) fun v => s.orAbort (s.store .byte a (f v)) State.done

/-- `btst [%rb],imm3` (R364): Z is 1 exactly when the bit is 0. -/
def execBtst (rb : Reg) (imm3 : BitVec 3) (s : State) : Result :=
  s.issue (.btst rb imm3) fun s =>
    s.orAbort (s.load .byte (s.bitAddress rb)) fun v =>
      ({ s with psr := { s.psr with z := !v.getLsbD imm3.toNat } } : State).done

/-- `bclr [%rb],imm3` (R365): clears the bit. -/
def execBclr (rb : Reg) (imm3 : BitVec 3) (s : State) : Result :=
  s.issue (.bclr rb imm3) fun s => s.rewriteByte rb fun v => v &&& ~~~(bitMask imm3)

/-- `bset [%rb],imm3` (R366): sets the bit. -/
def execBset (rb : Reg) (imm3 : BitVec 3) (s : State) : Result :=
  s.issue (.bset rb imm3) fun s => s.rewriteByte rb fun v => v ||| bitMask imm3

/-- `bnot [%rb],imm3` (R367): inverts the bit. -/
def execBnot (rb : Reg) (imm3 : BitVec 3) (s : State) : Result :=
  s.issue (.bnot rb imm3) fun s => s.rewriteByte rb fun v => v ^^^ bitMask imm3

end Sys2Proof.Machine
end

