-- ==== Sys2Proof/Machine/Stack.lean ====
section
/-! DEFINITION. Push and pop (47_pushpop.md). -/

namespace Sys2Proof.Machine

/-- `pushstep`: SP - 4, then the word there (47_pushpop.md R370). A miss changes neither. -/
def State.pushWord (s : State) (v : Word) : Except Abort State :=
  match s.store .word (s.sp - 4) v with
  | .error e => .error e
  | .ok t => .ok (t.setSp (s.sp - 4))

/-- `popstep`: the word at SP, then SP + 4 (47_pushpop.md R370). -/
def State.popWord (s : State) : Except Abort (Word × State) :=
  match s.load .word s.sp with
  | .error e => .error e
  | .ok v => .ok (v, s.setSp (s.sp + 4))

/-- PM set or cleared (47_pushpop.md R380). -/
def State.setPm (s : State) (b : Bool) : State := { s with psr := { s.psr with pm := b } }

/-- The register an interrupted sequence goes on with, kept in RC (47_pushpop.md R380). -/
def State.markRc (n : Reg) (s : State) : State := { s with psr := { s.psr with rc := n } }

/-- The end of a successive push or pop: PM cleared (47_pushpop.md R380). -/
def State.endSequence (s : State) : Result := (s.setPm false).done

/-- One push of a sequence for register n: a miss keeps n in RC and PM set (47_pushpop.md R380). -/
def State.pushOf (s : State) (n : Reg) (v : Word) (k : State → Result) : Result :=
  (State.markRc n s).orAbort (s.pushWord v) k

/-- One pop of a sequence for register n: a miss keeps n in RC and PM set (47_pushpop.md R380). -/
def State.popOf (s : State) (n : Reg) (k : Word → State → Result) : Result :=
  (State.markRc n s).orAbort s.popWord fun (v, t) => k v t

/-- `pushn` from register n down to R0, with a boundary between two registers (47_pushpop.md R375). -/
def pushDown : Nat → State → Result
  | 0, s => s.pushOf 0#4 (s.reg 0#4) State.endSequence
  | n + 1, s =>
    s.pushOf (BitVec.ofNat 4 (n + 1)) (s.reg (BitVec.ofNat 4 (n + 1))) fun t =>
      t.innerBoundary (State.markRc (BitVec.ofNat 4 n)) (pushDown n)

/-- `popn` of `left` + 1 registers from register n up, with a boundary between two registers (47_pushpop.md R376). -/
def popUp : Nat → Reg → State → Result
  | 0, n, s => s.popOf n fun v t => (t.setReg n v).endSequence
  | left + 1, n, s =>
    s.popOf n fun v t => (t.setReg n v).innerBoundary (State.markRc (n + 1)) (popUp left (n + 1))

/-- The word `pushs` writes for number n: the register for 2 to 9, a free value for 10 to 15 (47_pushpop.md R378). -/
def State.pushsValue (s : State) (n : SReg) : Word × State :=
  if n.toNat < 10 then s.readSpecial n else s.draw

/-- `pushs` from number n + 2 down to ALR, number 2 (47_pushpop.md R377). -/
def pushsDown : Nat → State → Result
  | 0, s =>
    let (v, t) := s.pushsValue 2#4
    t.pushOf 2#4 v State.endSequence
  | n + 1, s =>
    let (v, t) := s.pushsValue (BitVec.ofNat 4 (n + 3))
    t.pushOf (BitVec.ofNat 4 (n + 3)) v fun t =>
      t.innerBoundary (State.markRc (BitVec.ofNat 4 (n + 2))) (pushsDown n)

/-- `restore(n, v)`: the registers a `pops` writes (47_pushpop.md R379); the others take the word and drop it. -/
def State.restoreSpecial (s : State) (n : SReg) (v : Word) : State :=
  match n with
  | 0#4 => s.setSpecial n v
  | 2#4 => s.setSpecial n v
  | 3#4 => s.setSpecial n v
  | 4#4 => s.setSpecial n v
  | 5#4 => s.setSpecial n v
  | 6#4 => s.setSpecial n v
  | 7#4 => s.setSpecial n v
  | 8#4 => s.setSpecial n v
  | 9#4 => s.setSpecial n v
  | _ => s

/-- `pops` of `left` + 1 numbers from number n up (47_pushpop.md R379). -/
def popsUp : Nat → SReg → State → Result
  | 0, n, s => s.popOf n fun v t => (t.restoreSpecial n v).endSequence
  | left + 1, n, s =>
    s.popOf n fun v t => (t.restoreSpecial n v).innerBoundary (State.markRc (n + 1)) (popsUp left (n + 1))

/-- `push %rs` (R373): one register; PM and RC play no part. -/
def execPush (rs : Reg) (s : State) : Result :=
  s.issue (.push rs) fun s => s.orAbort (s.pushWord (s.reg rs)) State.done

/-- `pop %rd` (R374): one register; PM and RC play no part. -/
def execPop (rd : Reg) (s : State) : Result :=
  s.issue (.pop rd) fun s => s.orAbort s.popWord fun (v, t) => (t.setReg rd v).done

/-- `pushn %rs` (R375): rs down to R0, or from RC when resumed. -/
def execPushn (rs : Reg) (s : State) : Result :=
  s.issue (.pushn rs) fun s =>
    let n := if s.psr.pm then s.psr.rc else rs
    pushDown n.toNat (s.setPm true)

/-- `popn %rd` (R376): R0 up to rd, or from RC when resumed. -/
def execPopn (rd : Reg) (s : State) : Result :=
  s.issue (.popn rd) fun s =>
    let n := if s.psr.pm then s.psr.rc else 0#4
    popUp (rd - n).toNat n (s.setPm true)

/-- `pushs %ss` (R377): PSR or SP singly, else ss down to ALR, or from RC when resumed; SP is the value before the
instruction (R378). DESIGN CHOICE (log 42): a miss of the single form leaves RC and PM as they were. -/
def execPushs (ss : SReg) (s : State) : Result :=
  s.issue (.pushs ss) fun s =>
    let n := if s.psr.pm then s.psr.rc else ss
    if s.macclrHazard (if n = 0#4 ∨ n = 1#4 then n else 2#4) then .fault .macclrHazard
    else if n = 0#4 ∨ n = 1#4 then
      let (v, t) := s.readSpecial n
      t.orAbort (t.pushWord v) State.endSequence
    else pushsDown (n.toNat - 2) (s.setPm true)

/-- `pops %sd` (R379): PSR or SP singly, else ALR up to sd, or from RC when resumed. DESIGN CHOICE (log 42): a miss of
the single form leaves RC and PM as they were. -/
def execPops (sd : SReg) (s : State) : Result :=
  s.issue (.pops sd) fun s =>
    if (s.psr.lm || s.psr.rm) && decide (4 ≤ sd.toNat) then .fault .loopRegisterWrite
    else if !s.psr.pm && (sd = 0#4 ∨ sd = 1#4) then
      s.orAbort s.popWord fun (v, t) => (t.restoreSpecial sd v).endSequence
    else
      let n := if s.psr.pm then s.psr.rc else 2#4
      popsUp (sd - n).toNat n (s.setPm true)

end Sys2Proof.Machine
end

