-- ==== Sys2Proof/Machine/Branch.lean ====
section
/-! DEFINITION. Branches, calls and returns (48_branch.md). -/

namespace Sys2Proof.Machine

/-- A call: the return address, after the slot for a delayed form, is pushed at the call; then the branch
(48_branch.md R395, R413). -/
def State.call (s : State) (d : Bool) (target : Word) : Result :=
  s.orAbort (s.pushWord (if d then s.pc + 4 else s.pc + 2)) fun t => t.branch d true target

/-- `jrgt sign8 / jrgt.d sign8` (R400): taken when `gt` holds of the flags (R392). -/
def execJrgt (d : Bool) (sign8 : BitVec 8) (s : State) : Result :=
  s.issue (.jrgt d sign8) fun s => s.branch d (holds .gt s.psr) (s.pc + s.ext.sign8 sign8)

/-- `jrge sign8 / jrge.d sign8` (R401): taken when `ge` holds of the flags (R392). -/
def execJrge (d : Bool) (sign8 : BitVec 8) (s : State) : Result :=
  s.issue (.jrge d sign8) fun s => s.branch d (holds .ge s.psr) (s.pc + s.ext.sign8 sign8)

/-- `jrlt sign8 / jrlt.d sign8` (R402): taken when `lt` holds of the flags (R392). -/
def execJrlt (d : Bool) (sign8 : BitVec 8) (s : State) : Result :=
  s.issue (.jrlt d sign8) fun s => s.branch d (holds .lt s.psr) (s.pc + s.ext.sign8 sign8)

/-- `jrle sign8 / jrle.d sign8` (R403): taken when `le` holds of the flags (R392). -/
def execJrle (d : Bool) (sign8 : BitVec 8) (s : State) : Result :=
  s.issue (.jrle d sign8) fun s => s.branch d (holds .le s.psr) (s.pc + s.ext.sign8 sign8)

/-- `jrugt sign8 / jrugt.d sign8` (R404): taken when `ugt` holds of the flags (R392). -/
def execJrugt (d : Bool) (sign8 : BitVec 8) (s : State) : Result :=
  s.issue (.jrugt d sign8) fun s => s.branch d (holds .ugt s.psr) (s.pc + s.ext.sign8 sign8)

/-- `jruge sign8 / jruge.d sign8` (R405): taken when `uge` holds of the flags (R392). -/
def execJruge (d : Bool) (sign8 : BitVec 8) (s : State) : Result :=
  s.issue (.jruge d sign8) fun s => s.branch d (holds .uge s.psr) (s.pc + s.ext.sign8 sign8)

/-- `jrult sign8 / jrult.d sign8` (R406): taken when `ult` holds of the flags (R392). -/
def execJrult (d : Bool) (sign8 : BitVec 8) (s : State) : Result :=
  s.issue (.jrult d sign8) fun s => s.branch d (holds .ult s.psr) (s.pc + s.ext.sign8 sign8)

/-- `jrule sign8 / jrule.d sign8` (R407): taken when `ule` holds of the flags (R392). -/
def execJrule (d : Bool) (sign8 : BitVec 8) (s : State) : Result :=
  s.issue (.jrule d sign8) fun s => s.branch d (holds .ule s.psr) (s.pc + s.ext.sign8 sign8)

/-- `jreq sign8 / jreq.d sign8` (R408): taken when `eq` holds of the flags (R392). -/
def execJreq (d : Bool) (sign8 : BitVec 8) (s : State) : Result :=
  s.issue (.jreq d sign8) fun s => s.branch d (holds .eq s.psr) (s.pc + s.ext.sign8 sign8)

/-- `jrne sign8 / jrne.d sign8` (R409): taken when `ne` holds of the flags (R392). -/
def execJrne (d : Bool) (sign8 : BitVec 8) (s : State) : Result :=
  s.issue (.jrne d sign8) fun s => s.branch d (holds .ne s.psr) (s.pc + s.ext.sign8 sign8)

/-- `jp sign8 / jp.d sign8` (R410): always taken. -/
def execJpRel (d : Bool) (sign8 : BitVec 8) (s : State) : Result :=
  s.issue (.jpRel d sign8) fun s => s.branch d true (s.pc + s.ext.sign8 sign8)

/-- `jp %rb / jp.d %rb` (R411): to the address in rb, bit 0 dropped. -/
def execJpReg (d : Bool) (rb : Reg) (s : State) : Result :=
  s.issue (.jpReg d rb) fun s => s.branch d true (evenAddress (s.reg rb))

/-- `jpr %rb / jpr.d %rb` (R412): by the byte displacement in rb, bit 0 dropped. -/
def execJpr (d : Bool) (rb : Reg) (s : State) : Result :=
  s.issue (.jpr d rb) fun s => s.branch d true (s.pc + evenAddress (s.reg rb))

/-- `call sign8 / call.d sign8` (R413): a relative call. -/
def execCallRel (d : Bool) (sign8 : BitVec 8) (s : State) : Result :=
  s.issue (.callRel d sign8) fun s => s.call d (s.pc + s.ext.sign8 sign8)

/-- `call %rb / call.d %rb` (R414): a call to the address in rb. -/
def execCallReg (d : Bool) (rb : Reg) (s : State) : Result :=
  s.issue (.callReg d rb) fun s => s.call d (evenAddress (s.reg rb))

/-- `ret / ret.d` (R415): the return address is popped at the `ret`. -/
def execRet (d : Bool) (s : State) : Result :=
  s.issue (.ret d) fun s => s.orAbort s.popWord fun (v, t) => t.branch d true (evenAddress v)

end Sys2Proof.Machine
end

