-- ==== Sys2Proof/Machine/Exception.lean ====
section
/-! DEFINITION. Instructions that take an exception or return from one (60_exceptions.md). -/

namespace Sys2Proof.Machine

/-- `int imm2` (R578): software exception, vectors 12 to 15; the next address is saved. It has executed when the trap is
entered, so it counts in the read hazard windows (70_reset_and_hazards.md R642, R643). -/
def execInt (imm2 : BitVec 2) (s : State) : Result :=
  s.issue (.int imm2) fun s =>
    let (p, t) := s.restart
    t.retire.raise .software (0b000011#6 ++ imm2) (s.pc + 2) p

/-- `brk` (R596): debug exception; the next address is saved. It counts in the read hazard windows as `int` does. -/
def execBrk (s : State) : Result :=
  s.issue .brk fun s =>
    if s.psr.me || s.psr.de then .fault (.exceptionInHandler .breakpoint)
    else .next (s.retire.debugException (s.pc + 2))

/-- `reti` (R580): return from a trap. -/
def execReti (s : State) : Result :=
  s.issue .reti fun s => s.orAbort s.returnFromTrap fun (t, a) => .next (t.complete a)

/-- `retm` (R591): return from the MMU exception handler. -/
def execRetm (s : State) : Result :=
  s.issue .retm fun s =>
    let (t, a) := s.returnFromMmu
    .next (t.complete a)

/-- `retd` (R597): return from the debug exception handler. -/
def execRetd (s : State) : Result :=
  s.issue .retd fun s =>
    let (t, a) := s.returnFromDebug
    .next (t.complete a)

end Sys2Proof.Machine
end

