-- ==== Sys2Proof/Machine/Extension.lean ====
section
/-! DEFINITION. The prefixes (52_ext.md R540 to R544). -/

namespace Sys2Proof.Machine

/-- `ext imm13` (R540): an immediate for the target. -/
def execExtImm (imm13 : BitVec 13) (s : State) : Result :=
  s.issue (.extImm imm13) fun s => s.takePrefixRecord (s.ext.addImm s.pc imm13)

/-- `ext %rs` (R541): a third register operand. -/
def execExtReg (rs : Reg) (s : State) : Result :=
  s.issue (.extReg rs) fun s => s.takePrefixRecord (s.ext.addReg s.pc rs)

/-- `ext %rs,sra,imm2` (R542): a third register operand and a postshift. -/
def execExtRegSra (rs : Reg) (imm2 : BitVec 2) (s : State) : Result :=
  s.issue (.extRegSra rs imm2) fun s => s.takePrefixRecord (s.ext.addRegShift s.pc rs .sra imm2)

/-- `ext sra,imm2` (R543): a postshift. -/
def execExtSra (imm2 : BitVec 2) (s : State) : Result :=
  s.issue (.extSra imm2) fun s => s.takePrefixRecord (s.ext.addShift s.pc .sra imm2)

/-- `ext %rs,srl,imm2` (R542): a third register operand and a postshift. -/
def execExtRegSrl (rs : Reg) (imm2 : BitVec 2) (s : State) : Result :=
  s.issue (.extRegSrl rs imm2) fun s => s.takePrefixRecord (s.ext.addRegShift s.pc rs .srl imm2)

/-- `ext srl,imm2` (R543): a postshift. -/
def execExtSrl (imm2 : BitVec 2) (s : State) : Result :=
  s.issue (.extSrl imm2) fun s => s.takePrefixRecord (s.ext.addShift s.pc .srl imm2)

/-- `ext %rs,sll,imm2` (R542): a third register operand and a postshift. -/
def execExtRegSll (rs : Reg) (imm2 : BitVec 2) (s : State) : Result :=
  s.issue (.extRegSll rs imm2) fun s => s.takePrefixRecord (s.ext.addRegShift s.pc rs .sll imm2)

/-- `ext sll,imm2` (R543): a postshift. -/
def execExtSll (imm2 : BitVec 2) (s : State) : Result :=
  s.issue (.extSll imm2) fun s => s.takePrefixRecord (s.ext.addShift s.pc .sll imm2)

/-- `ext gt` (R544): the target is skipped when `gt` holds. -/
def execExtGt (s : State) : Result :=
  s.issue .extGt fun s => s.takePrefixRecord (s.ext.addCond s.pc .gt)

/-- `ext ge` (R544): the target is skipped when `ge` holds. -/
def execExtGe (s : State) : Result :=
  s.issue .extGe fun s => s.takePrefixRecord (s.ext.addCond s.pc .ge)

/-- `ext lt` (R544): the target is skipped when `lt` holds. -/
def execExtLt (s : State) : Result :=
  s.issue .extLt fun s => s.takePrefixRecord (s.ext.addCond s.pc .lt)

/-- `ext le` (R544): the target is skipped when `le` holds. -/
def execExtLe (s : State) : Result :=
  s.issue .extLe fun s => s.takePrefixRecord (s.ext.addCond s.pc .le)

/-- `ext ugt` (R544): the target is skipped when `ugt` holds. -/
def execExtUgt (s : State) : Result :=
  s.issue .extUgt fun s => s.takePrefixRecord (s.ext.addCond s.pc .ugt)

/-- `ext uge` (R544): the target is skipped when `uge` holds. -/
def execExtUge (s : State) : Result :=
  s.issue .extUge fun s => s.takePrefixRecord (s.ext.addCond s.pc .uge)

/-- `ext ult` (R544): the target is skipped when `ult` holds. -/
def execExtUlt (s : State) : Result :=
  s.issue .extUlt fun s => s.takePrefixRecord (s.ext.addCond s.pc .ult)

/-- `ext ule` (R544): the target is skipped when `ule` holds. -/
def execExtUle (s : State) : Result :=
  s.issue .extUle fun s => s.takePrefixRecord (s.ext.addCond s.pc .ule)

/-- `ext eq` (R544): the target is skipped when `eq` holds. -/
def execExtEq (s : State) : Result :=
  s.issue .extEq fun s => s.takePrefixRecord (s.ext.addCond s.pc .eq)

/-- `ext ne` (R544): the target is skipped when `ne` holds. -/
def execExtNe (s : State) : Result :=
  s.issue .extNe fun s => s.takePrefixRecord (s.ext.addCond s.pc .ne)

end Sys2Proof.Machine
end

