-- ==== Sys2Proof/Machine/Logic.lean ====
section
/-! DEFINITION. Logical operations: `and`, `or`, `xor`, `not` (41_logic.md). -/

namespace Sys2Proof.Machine

/-- Writes a logical result and its flags (41_logic.md R230, R231). -/
def State.putLogic (s : State) (rd : Reg) (res : Word) : Result :=
  ({ s.setReg rd res with psr := s.psr.logic res } : State).done

/-- `and %rd,%rs` (R234): with the three-operand forms of the prefixes (R231). -/
def execAndReg (rd rs : Reg) (s : State) : Result :=
  s.issue (.andReg rd rs) fun s =>
    let (a, b) := s.sources rd rs
    s.putLogic rd (a &&& b)

/-- `and %rd,sign6` (R235): with a signed immediate (R232). -/
def execAndImm (rd : Reg) (sign6 : BitVec 6) (s : State) : Result :=
  s.issue (.andImm rd sign6) fun s => s.putLogic rd (s.reg rd &&& s.ext.sign6 sign6)

/-- `or %rd,%rs` (R236): with the three-operand forms of the prefixes (R231). -/
def execOrReg (rd rs : Reg) (s : State) : Result :=
  s.issue (.orReg rd rs) fun s =>
    let (a, b) := s.sources rd rs
    s.putLogic rd (a ||| b)

/-- `or %rd,sign6` (R237): with a signed immediate (R232). -/
def execOrImm (rd : Reg) (sign6 : BitVec 6) (s : State) : Result :=
  s.issue (.orImm rd sign6) fun s => s.putLogic rd (s.reg rd ||| s.ext.sign6 sign6)

/-- `xor %rd,%rs` (R238): with the three-operand forms of the prefixes (R231). -/
def execXorReg (rd rs : Reg) (s : State) : Result :=
  s.issue (.xorReg rd rs) fun s =>
    let (a, b) := s.sources rd rs
    s.putLogic rd (a ^^^ b)

/-- `xor %rd,sign6` (R239): with a signed immediate (R232). -/
def execXorImm (rd : Reg) (sign6 : BitVec 6) (s : State) : Result :=
  s.issue (.xorImm rd sign6) fun s => s.putLogic rd (s.reg rd ^^^ s.ext.sign6 sign6)

/-- `not %rd,%rs` (R240): every bit of rs inverted; no prefix but `ext cond` has an effect. -/
def execNotReg (rd rs : Reg) (s : State) : Result :=
  s.issue (.notReg rd rs) fun s => s.putLogic rd (~~~(s.reg rs))

/-- `not %rd,sign6` (R241): every bit of the signed immediate inverted. -/
def execNotImm (rd : Reg) (sign6 : BitVec 6) (s : State) : Result :=
  s.issue (.notImm rd sign6) fun s => s.putLogic rd (~~~(s.ext.sign6 sign6))

end Sys2Proof.Machine
end

