-- ==== Sys2Proof/Machine/LoopRepeat.lean ====
section
/-! DEFINITION. `loop` and `repeat` (50_loop_repeat.md); the check after every instruction is State.redirect. -/

namespace Sys2Proof.Machine

/-- `loop`: LSA, LEA, LCO and LM (50_loop_repeat.md R461 to R463); a range of one instruction stops the machine
(R481 d). -/
def State.beginLoop (s : State) (last count : Word) : Result :=
  if evenAddress last = s.pc + 2 then .fault .singleInstructionLoop
  else
    ({ s with
      lsa := s.pc + 2
      lea := last
      lco := count
      psr := { s.psr with lm := true } } : State).done

/-- `repeat`: LSA, LCO and RM (50_loop_repeat.md R473, R474). -/
def State.beginRepeat (s : State) (count : Word) : Result :=
  ({ s with
    lsa := s.pc + 2
    lco := count
    psr := { s.psr with rm := true } } : State).done

/-- `loop %rc,%ra` (R461): the last address is in ra. -/
def execLoopReg (rc ra : Reg) (s : State) : Result :=
  s.issue (.loopReg rc ra) fun s => s.beginLoop (s.reg ra) (s.reg rc)

/-- `loop %rc,imm4` (R462): the last address is pc + 2 + 2 × imm4. -/
def execLoopRegImm (rc : Reg) (imm4 : BitVec 4) (s : State) : Result :=
  s.issue (.loopRegImm rc imm4) fun s => s.beginLoop (s.pc + 2 + imm4.setWidth 32 * 2) (s.reg rc)

/-- `loop imm4(count),imm4(addr)` (R463): both operands immediate. -/
def execLoopImm (count addr : BitVec 4) (s : State) : Result :=
  s.issue (.loopImm count addr) fun s => s.beginLoop (s.pc + 2 + addr.setWidth 32 * 2) (count.setWidth 32)

/-- `repeat %rc` (R473): the count is in rc. -/
def execRepeatReg (rc : Reg) (s : State) : Result :=
  s.issue (.repeatReg rc) fun s => s.beginRepeat (s.reg rc)

/-- `repeat imm4` (R474): the count is the immediate. -/
def execRepeatImm (imm4 : BitVec 4) (s : State) : Result :=
  s.issue (.repeatImm imm4) fun s => s.beginRepeat (imm4.setWidth 32)

end Sys2Proof.Machine
end

