-- ==== Sys2Proof/Machine/MulDiv.lean ====
section
/-! DEFINITION. Multiplication and division (43_muldiv.md). -/

namespace Sys2Proof.Machine

/-- A 64-bit product or accumulator to AHR and ALR, with their mirrors (43_muldiv.md R284). -/
def State.writeAcc (s : State) (p : BitVec 64) : State :=
  (s.writeAhr (p.extractLsb' 32 32)).writeAlr (p.extractLsb' 0 32)

/-- The low halfword of a register as a signed integer. -/
def State.signedHalf (s : State) (n : Reg) : Int := ((s.reg n).setWidth 16).toInt

/-- Zero division, vector 4: the instruction has completed, the next address is saved (43_muldiv.md R294,
60_exceptions.md R573). -/
def State.zeroDivide (s : State) : Result :=
  let (p, t) := s.restart
  t.retire.raise .zeroDivision 4#8 (s.pc + 2) p

/-- The end of `div0s` and `div0u`: DS may be read wrongly for two instructions (70_reset_and_hazards.md R642), and a
zero divisor takes the zero division exception. -/
def State.endDivision0 (s : State) (divisor : Word) : Result :=
  let t := { s with dsWindow := 3 }
  if divisor = 0 then t.zeroDivide else t.done

/-- `div1` on AHR and ALR: one shift and one trial subtraction or addition on 33 bits (43_muldiv.md R289). -/
def divisionStep (ds n : Bool) (ahr alr divisor : Word) : Word × Word :=
  let high := (ahr <<< 1) ||| (if alr.msb then 1#32 else 0#32)
  let low := alr <<< 1
  let a : BitVec 33 := BitVec.ofBool ds ++ high
  let b : BitVec 33 := BitVec.ofBool n ++ divisor
  let tmp := if ds == n then a - b else a + b
  if tmp.msb == ds then (tmp.setWidth 32, low ||| 1#32) else (high, low)

/-- `mlt.h %rd,%rs` (R282): signed 16 × 16 to ALR. -/
def execMltH (rd rs : Reg) (s : State) : Result :=
  s.issue (.mltH rd rs) fun s => (s.writeAlr (BitVec.ofInt 32 (s.signedHalf rd * s.signedHalf rs))).done

/-- `mltu.h %rd,%rs` (R283): unsigned 16 × 16 to ALR. -/
def execMltuH (rd rs : Reg) (s : State) : Result :=
  s.issue (.mltuH rd rs) fun s =>
    (s.writeAlr (((s.reg rd).setWidth 16).setWidth 32 * ((s.reg rs).setWidth 16).setWidth 32)).done

/-- `mlt.hw %rd,%rs` (R284): signed 32 × 16 to AHR and ALR. -/
def execMltHw (rd rs : Reg) (s : State) : Result :=
  s.issue (.mltHw rd rs) fun s => (s.writeAcc (BitVec.ofInt 64 ((s.reg rd).toInt * s.signedHalf rs))).done

/-- `mlt.w %rd,%rs` (R285): signed 32 × 32 to AHR and ALR. -/
def execMltW (rd rs : Reg) (s : State) : Result :=
  s.issue (.mltW rd rs) fun s => (s.writeAcc (BitVec.ofInt 64 ((s.reg rd).toInt * (s.reg rs).toInt))).done

/-- `mltu.w %rd,%rs` (R286): unsigned 32 × 32 to AHR and ALR. -/
def execMltuW (rd rs : Reg) (s : State) : Result :=
  s.issue (.mltuW rd rs) fun s => (s.writeAcc ((s.reg rd).setWidth 64 * (s.reg rs).setWidth 64)).done

/-- `div0s %rs` (R287): the dividend sign-extended into AHR, its sign to DS, the divisor's to N.
DESIGN CHOICE (log 41): the divisor is r[rs] as it was before AHR is written. With HC = 1 and rs = R5 the write of AHR also
writes R5, and the spec does not say whether N and the zero test then see the old R5 or the new one. -/
def execDiv0s (rs : Reg) (s : State) : Result :=
  s.issue (.div0s rs) fun s =>
    let t := s.writeAhr (if s.alr.msb then 0xFFFFFFFF#32 else 0#32)
    let psr := { s.psr with ds := s.alr.msb, n := (s.reg rs).msb }
    ({ t with psr := psr } : State).endDivision0 (s.reg rs)

/-- `div0u %rs` (R288): AHR, DS and N cleared.
DESIGN CHOICE (log 41): the zero test is of r[rs] as it was before AHR is written. With HC = 1 and rs = R5 the write of AHR
also clears R5, and the spec does not say which R5 is tested. -/
def execDiv0u (rs : Reg) (s : State) : Result :=
  s.issue (.div0u rs) fun s =>
    let t := s.writeAhr 0#32
    let psr := { s.psr with ds := false, n := false }
    ({ t with psr := psr } : State).endDivision0 (s.reg rs)

/-- `div1 %rs` (R289): one division step. -/
def execDiv1 (rs : Reg) (s : State) : Result :=
  s.issue (.div1 rs) fun s =>
    let (high, low) := divisionStep s.psr.ds s.psr.n s.ahr s.alr (s.reg rs)
    ((s.writeAhr high).writeAlr low).done

/-- `div2s %rs` (R290): correction of a remainder equal to the divisor. -/
def execDiv2s (rs : Reg) (s : State) : Result :=
  s.issue (.div2s rs) fun s =>
    let tmp := if s.psr.n then s.ahr - s.reg rs else s.ahr + s.reg rs
    if s.psr.ds && tmp == 0#32 then ((s.writeAhr 0#32).writeAlr (s.alr + 1)).done else s.done

/-- `div3s` (R291): the quotient negated when the signs differ. -/
def execDiv3s (s : State) : Result :=
  s.issue .div3s fun s => if s.psr.ds != s.psr.n then (s.writeAlr (0 - s.alr)).done else s.done

/-- `div.w %rs` (R292): signed division, rounded toward zero; ALR and AHR are free values when the divisor is 0 (R294). -/
def execDivW (rs : Reg) (s : State) : Result :=
  s.issue (.divW rs) fun s =>
    let d := s.reg rs
    let t : State := { s with psr := { s.psr with ds := s.alr.msb, n := d.msb } }
    if d = 0#32 then
      let (q, t) := t.draw
      let (m, t) := t.draw
      ((t.writeAlr q).writeAhr m).zeroDivide
    else
      let q := s.alr.toInt.tdiv d.toInt
      let m := s.alr.toInt.tmod d.toInt
      ((t.writeAlr (BitVec.ofInt 32 q)).writeAhr (BitVec.ofInt 32 m)).done

/-- `divu.w %rs` (R293): unsigned division; ALR and AHR are free values when the divisor is 0 (R294).
DESIGN CHOICE (log 41): quotient and remainder are both of r[rs] as it was before ALR is written. With LC = 1 and rs = R4 the
write of ALR also writes R4, and the rule says "old" of ALR only. -/
def execDivuW (rs : Reg) (s : State) : Result :=
  s.issue (.divuW rs) fun s =>
    let d := s.reg rs
    let t : State := { s with psr := { s.psr with ds := false, n := false } }
    if d = 0#32 then
      let (q, t) := t.draw
      let (m, t) := t.draw
      ((t.writeAlr q).writeAhr m).zeroDivide
    else ((t.writeAlr (s.alr / d)).writeAhr (s.alr % d)).done

end Sys2Proof.Machine
end

