-- ==== Sys2Proof/Machine/Mac.lean ====
section
/-! DEFINITION. Multiply-accumulate (44_mac.md). -/

namespace Sys2Proof.Machine

/-- `macstep`: the exact signed sum, MO set when it does not fit 64 bits, its low 64 bits kept (44_mac.md R310). -/
def State.macStep (s : State) (x y : Int) : State :=
  let sum := (s.ahr ++ s.alr : BitVec 64).toInt + x * y
  let overflow := decide (9223372036854775807 < sum) || decide (sum < -9223372036854775808)
  let t := s.writeAcc (BitVec.ofInt 64 sum)
  { t with psr := { t.psr with mo := t.psr.mo || overflow } }

/-- A loaded operand as a signed integer of its size (44_mac.md R313). -/
def signedOperand (z : Size) (v : Word) : Int :=
  match z with
  | .byte => (v.setWidth 8).toInt
  | .half => (v.setWidth 16).toInt
  | .word => v.toInt

/-- Whether register r is the counter or a pointer of a `mac` that counts in rs (44_mac.md R312). -/
def usesRegister (rs r : Reg) : Bool := r == rs || r == rs + 1 || r == rs + 2

/-- R4 with LC = 1, or R5 with HC = 1, is at once accumulator mirror and counter or pointer: the spec leaves its value
unspecified (44_mac.md R317, U27), a free value. -/
def State.loseOverlap (s : State) (rs : Reg) : State :=
  let s4 :=
    if s.psr.lc && usesRegister rs 4#4 then
      let (w, t) := s.draw
      t.setReg 4#4 w
    else s
  if s4.psr.hc && usesRegister rs 5#4 then
    let (w, t) := s4.draw
    t.setReg 5#4 w
  else s4

/-- One pass of `mac`, `mac.hw`, `mac.w`: both operands read, the first one first, then the accumulation, the two
pointers and the counter (44_mac.md R313). An access that is not performed undoes the whole pass. -/
def State.macPass (s : State) (rs : Reg) (z1 z2 : Size) : Except Abort State :=
  match s.memRead z1 (s.reg (rs + 1)) with
  | .error e => .error e
  | .ok v =>
    match s.memRead z2 (s.reg (rs + 2)) with
    | .error e => .error e
    | .ok w =>
      let t := s.macStep (signedOperand z1 v) (signedOperand z2 w)
      let t := t.setReg (rs + 1) (t.reg (rs + 1) + z1.bytes)
      let t := t.setReg (rs + 2) (t.reg (rs + 2) + z2.bytes)
      .ok ((t.setReg rs (t.reg rs - 1)).loseOverlap rs)

/-- The passes, at most `fuel` of them, with a boundary before every pass but the first (R313, R568). A counter that is
not 0 after that many passes, which only a register lost to R317 can leave, goes on in the next step. -/
def macLoop (rs : Reg) (z1 z2 : Size) : Nat → State → Result
  | 0, s => if s.reg rs = 0 then s.done else .next s
  | fuel + 1, s =>
    if s.reg rs = 0 then s.done
    else
      s.orAbort (s.macPass rs z1 z2) fun t =>
        if t.reg rs = 0 then t.done else t.innerBoundary (fun u => u) (macLoop rs z1 z2 fuel)

/-- A single accumulation (44_mac.md R319 to R321). -/
def State.macOne (s : State) (x y : Int) : Result := (s.macStep x y).done

/-- `mac %rs` (R314): 16 × 16 + 64, as many times as rs says. -/
def execMac (rs : Reg) (s : State) : Result :=
  s.issue (.mac rs) fun s => macLoop rs .half .half (s.reg rs).toNat s

/-- `mac.hw %rs` (R315): 32 × 16 + 64, as many times as rs says. -/
def execMacHw (rs : Reg) (s : State) : Result :=
  s.issue (.macHw rs) fun s => macLoop rs .word .half (s.reg rs).toNat s

/-- `mac.w %rs` (R316): 32 × 32 + 64, as many times as rs says. -/
def execMacW (rs : Reg) (s : State) : Result :=
  s.issue (.macW rs) fun s => macLoop rs .word .word (s.reg rs).toNat s

/-- `macclr` (R318): AHR, ALR, MO cleared; the two following instructions must not read AHR, ALR, PSR. -/
def execMacclr (s : State) : Result :=
  s.issue .macclr fun s =>
    let t := (s.writeAhr 0#32).writeAlr 0#32
    ({ t with psr := { t.psr with mo := false }, macWindow := 3 } : State).done

/-- `mac1.h %rd,%rs` (R319): 16 × 16 + 64. -/
def execMac1H (rd rs : Reg) (s : State) : Result :=
  s.issue (.mac1H rd rs) fun s => s.macOne (s.signedHalf rd) (s.signedHalf rs)

/-- `mac1.hw %rd,%rs` (R320): 32 × 16 + 64. -/
def execMac1Hw (rd rs : Reg) (s : State) : Result :=
  s.issue (.mac1Hw rd rs) fun s => s.macOne (s.reg rd).toInt (s.signedHalf rs)

/-- `mac1.w %rd,%rs` (R321): 32 × 32 + 64. -/
def execMac1W (rd rs : Reg) (s : State) : Result :=
  s.issue (.mac1W rd rs) fun s => s.macOne (s.reg rd).toInt (s.reg rs).toInt

end Sys2Proof.Machine
end

