-- ==== Sys2Proof/Machine/Misc.lean ====
section
/-! DEFINITION. Scan, swap, mirror, saturation, `nop` (49_misc.md). -/

namespace Sys2Proof.Machine

/-- Bytes in reverse order (49_misc.md R444). -/
def swapBytes (x : Word) : Word :=
  x.extractLsb' 0 8 ++ x.extractLsb' 8 8 ++ x.extractLsb' 16 8 ++ x.extractLsb' 24 8

/-- Bytes swapped within each halfword (49_misc.md R445). -/
def swapHalves (x : Word) : Word :=
  x.extractLsb' 16 8 ++ x.extractLsb' 24 8 ++ x.extractLsb' 0 8 ++ x.extractLsb' 8 8

/-- Bits reversed within each byte (49_misc.md R446). -/
def mirrorBytes (x : Word) : Word :=
  (x.extractLsb' 24 8).reverse ++ (x.extractLsb' 16 8).reverse ++ (x.extractLsb' 8 8).reverse ++
    (x.extractLsb' 0 8).reverse

/-- Writes a scan result and its flags (49_misc.md R441). -/
def State.putScan (s : State) (rd rs : Reg) (target : Bool) : Result :=
  let w := s.psr.scanWidth
  let n := scan target (s.reg rs) w
  ({ s.setReg rd (BitVec.ofNat 32 n) with psr := s.psr.scanned n w } : State).done

/-- Writes a limit and sets S, or writes the source and keeps S (49_misc.md R447 a). -/
def State.saturate (s : State) (rd : Reg) (v : Word) (limit : Option Word) : Result :=
  match limit with
  | some l => ({ s.setReg rd l with psr := { s.psr with s := true } } : State).done
  | none => s.put rd v

/-- The limit a signed value exceeds, if it exceeds one (49_misc.md R448, R450). -/
def signedLimit (low high : Int) (v : Word) : Option Word :=
  if high < v.toInt then some (BitVec.ofInt 32 high)
  else if v.toInt < low then some (BitVec.ofInt 32 low)
  else none

/-- The limit an unsigned value exceeds, if it exceeds it (49_misc.md R449, R451). -/
def unsignedLimit (high : Nat) (v : Word) : Option Word :=
  if high < v.toNat then some (BitVec.ofNat 32 high) else none

/-- The limit `sat.w` writes, by V and N (49_misc.md R452). -/
def Psr.signedOverflowLimit (p : Psr) : Option Word :=
  if p.v then some (if p.n then 0x7FFFFFFF#32 else 0x80000000#32) else none

/-- The limit `sat.uw` writes, by C (49_misc.md R453). -/
def Psr.carryLimit (p : Psr) : Option Word := if p.c then some 0xFFFFFFFF#32 else none

/-- `scan0 %rd,%rs` (R442): the position of the first 0. -/
def execScan0 (rd rs : Reg) (s : State) : Result :=
  s.issue (.scan0 rd rs) fun s => s.putScan rd rs false

/-- `scan1 %rd,%rs` (R443): the position of the first 1. -/
def execScan1 (rd rs : Reg) (s : State) : Result :=
  s.issue (.scan1 rd rs) fun s => s.putScan rd rs true

/-- `swap %rd,%rs` (R444): bytes reversed. -/
def execSwap (rd rs : Reg) (s : State) : Result :=
  s.issue (.swap rd rs) fun s => s.put rd (swapBytes (s.reg rs))

/-- `swaph %rd,%rs` (R445): bytes swapped in each halfword. -/
def execSwaph (rd rs : Reg) (s : State) : Result :=
  s.issue (.swaph rd rs) fun s => s.put rd (swapHalves (s.reg rs))

/-- `mirror %rd,%rs` (R446): bits reversed in each byte. -/
def execMirror (rd rs : Reg) (s : State) : Result :=
  s.issue (.mirror rd rs) fun s => s.put rd (mirrorBytes (s.reg rs))

/-- `sat.b %rd,%rs` (R448): signed 8-bit saturation. -/
def execSatB (rd rs : Reg) (s : State) : Result :=
  s.issue (.satB rd rs) fun s => s.saturate rd (s.reg rs) (signedLimit (-128) 127 (s.reg rs))

/-- `sat.ub %rd,%rs` (R449): unsigned 8-bit saturation. -/
def execSatUb (rd rs : Reg) (s : State) : Result :=
  s.issue (.satUb rd rs) fun s => s.saturate rd (s.reg rs) (unsignedLimit 255 (s.reg rs))

/-- `sat.h %rd,%rs` (R450): signed 16-bit saturation. -/
def execSatH (rd rs : Reg) (s : State) : Result :=
  s.issue (.satH rd rs) fun s => s.saturate rd (s.reg rs) (signedLimit (-32768) 32767 (s.reg rs))

/-- `sat.uh %rd,%rs` (R451): unsigned 16-bit saturation. -/
def execSatUh (rd rs : Reg) (s : State) : Result :=
  s.issue (.satUh rd rs) fun s => s.saturate rd (s.reg rs) (unsignedLimit 65535 (s.reg rs))

/-- `sat.w %rd,%rs` (R452): 32-bit saturation by V and N. -/
def execSatW (rd rs : Reg) (s : State) : Result :=
  s.issue (.satW rd rs) fun s => s.saturate rd (s.reg rs) s.psr.signedOverflowLimit

/-- `sat.uw %rd,%rs` (R453): 32-bit saturation by C. -/
def execSatUw (rd rs : Reg) (s : State) : Result :=
  s.issue (.satUw rd rs) fun s => s.saturate rd (s.reg rs) s.psr.carryLimit

/-- `nop` (R455): only the pc advances. -/
def execNop (s : State) : Result :=
  s.issue .nop fun s => s.done

end Sys2Proof.Machine
end

