-- ==== Sys2Proof/Machine/ShiftRotate.lean ====
section
/-! DEFINITION. Shifts and rotates (45_shift.md). -/

namespace Sys2Proof.Machine

/-- One shift or rotate: the value, SOR, and the flags (45_shift.md R331, R332, R333, R335). -/
def State.shiftBy (s : State) (op : Shift) (rd : Reg) (n : Nat) : Result :=
  let src := s.shiftSource rd
  let res := shiftValue op src n
  ({ s.setReg rd res with
    sor := shiftOutWord op src n
    psr := s.psr.shift res (shiftedOut op src n) } : State).done

/-- `srl %rd,%rs` (R336): the count is in the 5 low bits of rs. -/
def execSrlReg (rd rs : Reg) (s : State) : Result :=
  s.issue (.srlReg rd rs) fun s => s.shiftBy .srl rd (s.shiftCount rs)

/-- `srl %rd,imm5 (imm5 = 0 to 15)` (R337): the code for counts 0 to 15. -/
def execSrlLow (rd : Reg) (imm5 : BitVec 5) (s : State) : Result :=
  s.issue (.srlLow rd imm5) fun s => s.shiftBy .srl rd imm5.toNat

/-- `srl %rd,imm5 (imm5 = 16 to 31)` (R337): the code for counts 16 to 31. -/
def execSrlHigh (rd : Reg) (imm5 : BitVec 5) (s : State) : Result :=
  s.issue (.srlHigh rd imm5) fun s => s.shiftBy .srl rd imm5.toNat

/-- `sll %rd,%rs` (R338): the count is in the 5 low bits of rs. -/
def execSllReg (rd rs : Reg) (s : State) : Result :=
  s.issue (.sllReg rd rs) fun s => s.shiftBy .sll rd (s.shiftCount rs)

/-- `sll %rd,imm5 (imm5 = 0 to 15)` (R339): the code for counts 0 to 15. -/
def execSllLow (rd : Reg) (imm5 : BitVec 5) (s : State) : Result :=
  s.issue (.sllLow rd imm5) fun s => s.shiftBy .sll rd imm5.toNat

/-- `sll %rd,imm5 (imm5 = 16 to 31)` (R339): the code for counts 16 to 31. -/
def execSllHigh (rd : Reg) (imm5 : BitVec 5) (s : State) : Result :=
  s.issue (.sllHigh rd imm5) fun s => s.shiftBy .sll rd imm5.toNat

/-- `sra %rd,%rs` (R340): the count is in the 5 low bits of rs. -/
def execSraReg (rd rs : Reg) (s : State) : Result :=
  s.issue (.sraReg rd rs) fun s => s.shiftBy .sra rd (s.shiftCount rs)

/-- `sra %rd,imm5 (imm5 = 0 to 15)` (R341): the code for counts 0 to 15. -/
def execSraLow (rd : Reg) (imm5 : BitVec 5) (s : State) : Result :=
  s.issue (.sraLow rd imm5) fun s => s.shiftBy .sra rd imm5.toNat

/-- `sra %rd,imm5 (imm5 = 16 to 31)` (R341): the code for counts 16 to 31. -/
def execSraHigh (rd : Reg) (imm5 : BitVec 5) (s : State) : Result :=
  s.issue (.sraHigh rd imm5) fun s => s.shiftBy .sra rd imm5.toNat

/-- `sla %rd,%rs` (R342): the count is in the 5 low bits of rs. -/
def execSlaReg (rd rs : Reg) (s : State) : Result :=
  s.issue (.slaReg rd rs) fun s => s.shiftBy .sla rd (s.shiftCount rs)

/-- `sla %rd,imm5 (imm5 = 0 to 15)` (R343): the code for counts 0 to 15. -/
def execSlaLow (rd : Reg) (imm5 : BitVec 5) (s : State) : Result :=
  s.issue (.slaLow rd imm5) fun s => s.shiftBy .sla rd imm5.toNat

/-- `sla %rd,imm5 (imm5 = 16 to 31)` (R343): the code for counts 16 to 31. -/
def execSlaHigh (rd : Reg) (imm5 : BitVec 5) (s : State) : Result :=
  s.issue (.slaHigh rd imm5) fun s => s.shiftBy .sla rd imm5.toNat

/-- `rr %rd,%rs` (R344): the count is in the 5 low bits of rs. -/
def execRrReg (rd rs : Reg) (s : State) : Result :=
  s.issue (.rrReg rd rs) fun s => s.shiftBy .rr rd (s.shiftCount rs)

/-- `rr %rd,imm5 (imm5 = 0 to 15)` (R345): the code for counts 0 to 15. -/
def execRrLow (rd : Reg) (imm5 : BitVec 5) (s : State) : Result :=
  s.issue (.rrLow rd imm5) fun s => s.shiftBy .rr rd imm5.toNat

/-- `rr %rd,imm5 (imm5 = 16 to 31)` (R345): the code for counts 16 to 31. -/
def execRrHigh (rd : Reg) (imm5 : BitVec 5) (s : State) : Result :=
  s.issue (.rrHigh rd imm5) fun s => s.shiftBy .rr rd imm5.toNat

/-- `rl %rd,%rs` (R346): the count is in the 5 low bits of rs. -/
def execRlReg (rd rs : Reg) (s : State) : Result :=
  s.issue (.rlReg rd rs) fun s => s.shiftBy .rl rd (s.shiftCount rs)

/-- `rl %rd,imm5 (imm5 = 0 to 15)` (R347): the code for counts 0 to 15. -/
def execRlLow (rd : Reg) (imm5 : BitVec 5) (s : State) : Result :=
  s.issue (.rlLow rd imm5) fun s => s.shiftBy .rl rd imm5.toNat

/-- `rl %rd,imm5 (imm5 = 16 to 31)` (R347): the code for counts 16 to 31. -/
def execRlHigh (rd : Reg) (imm5 : BitVec 5) (s : State) : Result :=
  s.issue (.rlHigh rd imm5) fun s => s.shiftBy .rl rd imm5.toNat

end Sys2Proof.Machine
end

