-- ==== Sys2Proof/Machine/System.lean ====
section
/-! DEFINITION. System control and the coprocessor interface (51_system_coproc.md). -/

namespace Sys2Proof.Machine

/-- `halt` and `slp`: enabled in supervisor mode or with HE = 1, else only the pc advances (51_system_coproc.md R491,
R492, R494). -/
def State.powerDown (s : State) (mode : RunState) : Result :=
  if !s.psr.sv || s.psr.he then .next { s.complete (s.pc + 2) with run := mode } else s.done

/-- `halt` (R491): HALT mode. -/
def execHalt (s : State) : Result :=
  s.issue .halt fun s => s.powerDown .halt

/-- `slp` (R492): SLEEP mode. -/
def execSlp (s : State) : Result :=
  s.issue .slp fun s => s.powerDown .sleep

/-- `psrset imm5` (R496): sets one PSR bit under the write rights of the mode. -/
def execPsrset (imm5 : BitVec 5) (s : State) : Result :=
  s.issue (.psrset imm5) fun s => (s.writePsr (s.psr.toWord ||| (1#32 <<< imm5.toNat))).done

/-- `psrclr imm5` (R497): clears one PSR bit under the write rights of the mode. -/
def execPsrclr (imm5 : BitVec 5) (s : State) : Result :=
  s.issue (.psrclr imm5) fun s => (s.writePsr (s.psr.toWord &&& ~~~(1#32 <<< imm5.toNat))).done

/-- `ld.c %rd,imm4` (R501): a word from the coprocessor. -/
def execLdcRead (rd : Reg) (imm4 : BitVec 4) (s : State) : Result :=
  s.issue (.ldcRead rd imm4) fun s =>
    ({ s.setReg rd (Config.copRead s.cop imm4) with cop := .read imm4 :: s.cop } : State).done

/-- `ld.c imm4,%rs` (R502): a word to the coprocessor. -/
def execLdcWrite (imm4 : BitVec 4) (rs : Reg) (s : State) : Result :=
  s.issue (.ldcWrite imm4 rs) fun s => ({ s with cop := .write imm4 (s.reg rs) :: s.cop } : State).done

/-- `do.c imm6` (R503): a command to the coprocessor. -/
def execDoC (imm6 : BitVec 6) (s : State) : Result :=
  s.issue (.doC imm6) fun s => ({ s with cop := .exec imm6 :: s.cop } : State).done

/-- `ld.cf` (R504): C, V, Z, N from the coprocessor, which stays as it is. -/
def execLdCf (s : State) : Result :=
  s.issue .ldCf fun s =>
    let f := Config.copFlags s.cop
    let psr := { s.psr with c := f.getLsbD 3, v := f.getLsbD 2, z := f.getLsbD 1, n := f.getLsbD 0 }
    ({ s with psr := psr } : State).done

end Sys2Proof.Machine
end

