-- ==== Sys2Proof/Machine/Dispatch.lean ====
section
/-! DEFINITION. One arm per instruction, each a direct call of its meaning. -/

namespace Sys2Proof.Machine

/-- What an instruction does in a state. -/
def exec (i : Instr) (s : State) : Host.Outcome State Fault Refusal :=
  match i with
  | .nop => Sys2Proof.Machine.execNop s
  | .slp => Sys2Proof.Machine.execSlp s
  | .halt => Sys2Proof.Machine.execHalt s
  | .pushn rs => Sys2Proof.Machine.execPushn rs s
  | .popn rd => Sys2Proof.Machine.execPopn rd s
  | .jpr d rb => Sys2Proof.Machine.execJpr d rb s
  | .brk => Sys2Proof.Machine.execBrk s
  | .retd => Sys2Proof.Machine.execRetd s
  | .int imm2 => Sys2Proof.Machine.execInt imm2 s
  | .reti => Sys2Proof.Machine.execReti s
  | .callReg d rb => Sys2Proof.Machine.execCallReg d rb s
  | .ret d => Sys2Proof.Machine.execRet d s
  | .jpReg d rb => Sys2Proof.Machine.execJpReg d rb s
  | .retm => Sys2Proof.Machine.execRetm s
  | .push rs => Sys2Proof.Machine.execPush rs s
  | .pop rd => Sys2Proof.Machine.execPop rd s
  | .pushs ss => Sys2Proof.Machine.execPushs ss s
  | .pops sd => Sys2Proof.Machine.execPops sd s
  | .macW rs => Sys2Proof.Machine.execMacW rs s
  | .macHw rs => Sys2Proof.Machine.execMacHw rs s
  | .macclr => Sys2Proof.Machine.execMacclr s
  | .ldCf => Sys2Proof.Machine.execLdCf s
  | .divuW rs => Sys2Proof.Machine.execDivuW rs s
  | .divW rs => Sys2Proof.Machine.execDivW rs s
  | .repeatReg rc => Sys2Proof.Machine.execRepeatReg rc s
  | .repeatImm imm4 => Sys2Proof.Machine.execRepeatImm imm4 s
  | .addDp rd => Sys2Proof.Machine.execAddDp rd s
  | .jrgt d sign8 => Sys2Proof.Machine.execJrgt d sign8 s
  | .jrge d sign8 => Sys2Proof.Machine.execJrge d sign8 s
  | .jrlt d sign8 => Sys2Proof.Machine.execJrlt d sign8 s
  | .jrle d sign8 => Sys2Proof.Machine.execJrle d sign8 s
  | .jrugt d sign8 => Sys2Proof.Machine.execJrugt d sign8 s
  | .jruge d sign8 => Sys2Proof.Machine.execJruge d sign8 s
  | .jrult d sign8 => Sys2Proof.Machine.execJrult d sign8 s
  | .jrule d sign8 => Sys2Proof.Machine.execJrule d sign8 s
  | .jreq d sign8 => Sys2Proof.Machine.execJreq d sign8 s
  | .jrne d sign8 => Sys2Proof.Machine.execJrne d sign8 s
  | .callRel d sign8 => Sys2Proof.Machine.execCallRel d sign8 s
  | .jpRel d sign8 => Sys2Proof.Machine.execJpRel d sign8 s
  | .ldbInd rd rb => Sys2Proof.Machine.execLdbInd rd rb s
  | .ldbInc rd rb => Sys2Proof.Machine.execLdbInc rd rb s
  | .ldubInd rd rb => Sys2Proof.Machine.execLdubInd rd rb s
  | .ldubInc rd rb => Sys2Proof.Machine.execLdubInc rd rb s
  | .ldhInd rd rb => Sys2Proof.Machine.execLdhInd rd rb s
  | .ldhInc rd rb => Sys2Proof.Machine.execLdhInc rd rb s
  | .lduhInd rd rb => Sys2Proof.Machine.execLduhInd rd rb s
  | .lduhInc rd rb => Sys2Proof.Machine.execLduhInc rd rb s
  | .ldwInd rd rb => Sys2Proof.Machine.execLdwInd rd rb s
  | .ldwInc rd rb => Sys2Proof.Machine.execLdwInc rd rb s
  | .stbInd rb rs => Sys2Proof.Machine.execStbInd rb rs s
  | .stbInc rb rs => Sys2Proof.Machine.execStbInc rb rs s
  | .sthInd rb rs => Sys2Proof.Machine.execSthInd rb rs s
  | .sthInc rb rs => Sys2Proof.Machine.execSthInc rb rs s
  | .stwInd rb rs => Sys2Proof.Machine.execStwInd rb rs s
  | .stwInc rb rs => Sys2Proof.Machine.execStwInc rb rs s
  | .addReg rd rs => Sys2Proof.Machine.execAddReg rd rs s
  | .subReg rd rs => Sys2Proof.Machine.execSubReg rd rs s
  | .cmpReg rd rs => Sys2Proof.Machine.execCmpReg rd rs s
  | .ldwReg rd rs => Sys2Proof.Machine.execLdwReg rd rs s
  | .andReg rd rs => Sys2Proof.Machine.execAndReg rd rs s
  | .orReg rd rs => Sys2Proof.Machine.execOrReg rd rs s
  | .xorReg rd rs => Sys2Proof.Machine.execXorReg rd rs s
  | .notReg rd rs => Sys2Proof.Machine.execNotReg rd rs s
  | .srlHigh rd imm5 => Sys2Proof.Machine.execSrlHigh rd imm5 s
  | .sllHigh rd imm5 => Sys2Proof.Machine.execSllHigh rd imm5 s
  | .sraHigh rd imm5 => Sys2Proof.Machine.execSraHigh rd imm5 s
  | .slaHigh rd imm5 => Sys2Proof.Machine.execSlaHigh rd imm5 s
  | .rrHigh rd imm5 => Sys2Proof.Machine.execRrHigh rd imm5 s
  | .rlHigh rd imm5 => Sys2Proof.Machine.execRlHigh rd imm5 s
  | .extSra imm2 => Sys2Proof.Machine.execExtSra imm2 s
  | .extSrl imm2 => Sys2Proof.Machine.execExtSrl imm2 s
  | .extSll imm2 => Sys2Proof.Machine.execExtSll imm2 s
  | .extGt => Sys2Proof.Machine.execExtGt s
  | .extGe => Sys2Proof.Machine.execExtGe s
  | .extLt => Sys2Proof.Machine.execExtLt s
  | .extLe => Sys2Proof.Machine.execExtLe s
  | .extUgt => Sys2Proof.Machine.execExtUgt s
  | .extUge => Sys2Proof.Machine.execExtUge s
  | .extUlt => Sys2Proof.Machine.execExtUlt s
  | .extUle => Sys2Proof.Machine.execExtUle s
  | .extEq => Sys2Proof.Machine.execExtEq s
  | .extNe => Sys2Proof.Machine.execExtNe s
  | .extReg rs => Sys2Proof.Machine.execExtReg rs s
  | .extRegSra rs imm2 => Sys2Proof.Machine.execExtRegSra rs imm2 s
  | .extRegSrl rs imm2 => Sys2Proof.Machine.execExtRegSrl rs imm2 s
  | .extRegSll rs imm2 => Sys2Proof.Machine.execExtRegSll rs imm2 s
  | .ldbSp rd imm6 => Sys2Proof.Machine.execLdbSp rd imm6 s
  | .ldubSp rd imm6 => Sys2Proof.Machine.execLdubSp rd imm6 s
  | .ldhSp rd imm6 => Sys2Proof.Machine.execLdhSp rd imm6 s
  | .lduhSp rd imm6 => Sys2Proof.Machine.execLduhSp rd imm6 s
  | .ldwSp rd imm6 => Sys2Proof.Machine.execLdwSp rd imm6 s
  | .stbSp imm6 rs => Sys2Proof.Machine.execStbSp imm6 rs s
  | .sthSp imm6 rs => Sys2Proof.Machine.execSthSp imm6 rs s
  | .stwSp imm6 rs => Sys2Proof.Machine.execStwSp imm6 rs s
  | .ldbDp rd imm6 => Sys2Proof.Machine.execLdbDp rd imm6 s
  | .ldubDp rd imm6 => Sys2Proof.Machine.execLdubDp rd imm6 s
  | .ldhDp rd imm6 => Sys2Proof.Machine.execLdhDp rd imm6 s
  | .lduhDp rd imm6 => Sys2Proof.Machine.execLduhDp rd imm6 s
  | .ldwDp rd imm6 => Sys2Proof.Machine.execLdwDp rd imm6 s
  | .stbDp imm6 rs => Sys2Proof.Machine.execStbDp imm6 rs s
  | .sthDp imm6 rs => Sys2Proof.Machine.execSthDp imm6 rs s
  | .stwDp imm6 rs => Sys2Proof.Machine.execStwDp imm6 rs s
  | .addImm rd imm6 => Sys2Proof.Machine.execAddImm rd imm6 s
  | .subImm rd imm6 => Sys2Proof.Machine.execSubImm rd imm6 s
  | .cmpImm rd sign6 => Sys2Proof.Machine.execCmpImm rd sign6 s
  | .ldwImm rd sign6 => Sys2Proof.Machine.execLdwImm rd sign6 s
  | .andImm rd sign6 => Sys2Proof.Machine.execAndImm rd sign6 s
  | .orImm rd sign6 => Sys2Proof.Machine.execOrImm rd sign6 s
  | .xorImm rd sign6 => Sys2Proof.Machine.execXorImm rd sign6 s
  | .notImm rd sign6 => Sys2Proof.Machine.execNotImm rd sign6 s
  | .addSp imm10 => Sys2Proof.Machine.execAddSp imm10 s
  | .subSp imm10 => Sys2Proof.Machine.execSubSp imm10 s
  | .srlLow rd imm5 => Sys2Proof.Machine.execSrlLow rd imm5 s
  | .srlReg rd rs => Sys2Proof.Machine.execSrlReg rd rs s
  | .sllLow rd imm5 => Sys2Proof.Machine.execSllLow rd imm5 s
  | .sllReg rd rs => Sys2Proof.Machine.execSllReg rd rs s
  | .sraLow rd imm5 => Sys2Proof.Machine.execSraLow rd imm5 s
  | .sraReg rd rs => Sys2Proof.Machine.execSraReg rd rs s
  | .slaLow rd imm5 => Sys2Proof.Machine.execSlaLow rd imm5 s
  | .slaReg rd rs => Sys2Proof.Machine.execSlaReg rd rs s
  | .rrLow rd imm5 => Sys2Proof.Machine.execRrLow rd imm5 s
  | .rrReg rd rs => Sys2Proof.Machine.execRrReg rd rs s
  | .rlLow rd imm5 => Sys2Proof.Machine.execRlLow rd imm5 s
  | .rlReg rd rs => Sys2Proof.Machine.execRlReg rd rs s
  | .scan0 rd rs => Sys2Proof.Machine.execScan0 rd rs s
  | .scan1 rd rs => Sys2Proof.Machine.execScan1 rd rs s
  | .swap rd rs => Sys2Proof.Machine.execSwap rd rs s
  | .mirror rd rs => Sys2Proof.Machine.execMirror rd rs s
  | .swaph rd rs => Sys2Proof.Machine.execSwaph rd rs s
  | .satB rd rs => Sys2Proof.Machine.execSatB rd rs s
  | .div0s rs => Sys2Proof.Machine.execDiv0s rs s
  | .div0u rs => Sys2Proof.Machine.execDiv0u rs s
  | .div1 rs => Sys2Proof.Machine.execDiv1 rs s
  | .div2s rs => Sys2Proof.Machine.execDiv2s rs s
  | .div3s => Sys2Proof.Machine.execDiv3s s
  | .satUb rd rs => Sys2Proof.Machine.execSatUb rd rs s
  | .ldwSd sd rs => Sys2Proof.Machine.execLdwSd sd rs s
  | .ldbReg rd rs => Sys2Proof.Machine.execLdbReg rd rs s
  | .mltH rd rs => Sys2Proof.Machine.execMltH rd rs s
  | .mltHw rd rs => Sys2Proof.Machine.execMltHw rd rs s
  | .ldwSs rd ss => Sys2Proof.Machine.execLdwSs rd ss s
  | .ldubReg rd rs => Sys2Proof.Machine.execLdubReg rd rs s
  | .mltuH rd rs => Sys2Proof.Machine.execMltuH rd rs s
  | .mac1H rd rs => Sys2Proof.Machine.execMac1H rd rs s
  | .btst rb imm3 => Sys2Proof.Machine.execBtst rb imm3 s
  | .ldhReg rd rs => Sys2Proof.Machine.execLdhReg rd rs s
  | .mltW rd rs => Sys2Proof.Machine.execMltW rd rs s
  | .mac1Hw rd rs => Sys2Proof.Machine.execMac1Hw rd rs s
  | .bclr rb imm3 => Sys2Proof.Machine.execBclr rb imm3 s
  | .lduhReg rd rs => Sys2Proof.Machine.execLduhReg rd rs s
  | .mltuW rd rs => Sys2Proof.Machine.execMltuW rd rs s
  | .bset rb imm3 => Sys2Proof.Machine.execBset rb imm3 s
  | .ldcRead rd imm4 => Sys2Proof.Machine.execLdcRead rd imm4 s
  | .mac rs => Sys2Proof.Machine.execMac rs s
  | .mac1W rd rs => Sys2Proof.Machine.execMac1W rd rs s
  | .bnot rb imm3 => Sys2Proof.Machine.execBnot rb imm3 s
  | .ldcWrite imm4 rs => Sys2Proof.Machine.execLdcWrite imm4 rs s
  | .satH rd rs => Sys2Proof.Machine.execSatH rd rs s
  | .satUh rd rs => Sys2Proof.Machine.execSatUh rd rs s
  | .adc rd rs => Sys2Proof.Machine.execAdc rd rs s
  | .loopReg rc ra => Sys2Proof.Machine.execLoopReg rc ra s
  | .loopRegImm rc imm4 => Sys2Proof.Machine.execLoopRegImm rc imm4 s
  | .loopImm count addr => Sys2Proof.Machine.execLoopImm count addr s
  | .sbc rd rs => Sys2Proof.Machine.execSbc rd rs s
  | .satW rd rs => Sys2Proof.Machine.execSatW rd rs s
  | .satUw rd rs => Sys2Proof.Machine.execSatUw rd rs s
  | .doC imm6 => Sys2Proof.Machine.execDoC imm6 s
  | .psrset imm5 => Sys2Proof.Machine.execPsrset imm5 s
  | .psrclr imm5 => Sys2Proof.Machine.execPsrclr imm5 s
  | .extImm imm13 => Sys2Proof.Machine.execExtImm imm13 s

end Sys2Proof.Machine
end

