-- ==== Sys2Proof/Machine/Step.lean ====
section
/-! DEFINITION. One step of the machine: the boundary before an instruction, then the fetched instruction. -/

namespace Sys2Proof.Machine

/-- Fetches, decodes and runs the instruction at the pc. A fetch that misses takes the MMU exception with the address being
fetched saved (60_exceptions.md R590); a code in no table stops the machine (30_encoding.md R134, D3); a code fetched from
bytes stored too shortly before runs as memory has it, and is flagged (20_memory.md R104, D11). -/
def State.runInstruction (s : State) : Host.Outcome State Fault Refusal :=
  match s.fetch with
  | .error _ => s.mmuException s.pc
  | .ok code =>
    match decodeHalf code with
    | some i => exec i s.fetched
    | none => .fault (.unassignedCode code)

/-- One step. Reset comes before everything (70_reset_and_hazards.md R620); a core in reset starts when it is released; a
halted or sleeping core waits; a running core takes what the boundary accepts, or runs one instruction
(60_exceptions.md R568, R600). -/
def step (s : State) : Host.Outcome State Fault Refusal :=
  let (i, t) := s.poll
  match i.reset with
  | some kind => .next (t.beginReset kind)
  | none =>
    match t.run with
    | .reset => t.endReset
    | .halt => t.idle i
    | .sleep => t.idle i
    | .running =>
      match t.boundaryEvent i with
      | some r => r
      | none => t.runInstruction

/-- The state with an instruction stored where `step` fetches its next one: one halfword, as every code is
(30_encoding.md R120), at the physical address of the pc, in the byte order of the machine. -/
def State.withFetchWord (s : State) (_nbits w : Nat) : State := s.placeCode (BitVec.ofNat 16 w)

end Sys2Proof.Machine
end

