-- ==== Sys2Proof/Safety.lean ====
section
/-! DEFINITION. What the statements call a well-kept state: the fixed bits of the registers and the canonical form of
the memory; and what it is for an instruction to be free to run. -/

namespace Sys2Proof.Machine

/-- The parts of the state the manual fixes: bit 0 of the PC is 0 (10_state.md R24), bits 1:0 of SSP, USP and DP are 0
(R38, R40), bits 9:0 of TTBR are 0 (R41), so is bit 0 of the address pending after a delay slot; the prefix record
holds at most two immediates (52_ext.md R521); the memory is in its canonical form. -/
structure State.WellKept (s : State) : Prop where
  pc : evenAddress s.pc = s.pc
  ssp : wordAddress s.ssp = s.ssp
  usp : wordAddress s.usp = s.usp
  dp : wordAddress s.dp = s.dp
  ttbr : tableAddress s.ttbr = s.ttbr
  delay : ∀ a, s.delay = some a → evenAddress a = a
  imm : s.ext.imm.length ≤ 2
  mem : Memory.wf s.mem = true

/-- The instruction stands where it may stand and is not skipped by `ext cond`: it runs its own effect. -/
def State.Free (s : State) (i : Instr) : Prop := s.misplaced i = none ∧ s.skips i = false

end Sys2Proof.Machine
end

