-- ==== Sys2Proof/Certificates/Slice0/Obligations.lean ====
section
/-! DEFINITION. The statements for the provers. First, in Sys2Proof.Spec, the values and effects the rules of spec/ give,
written from the rules and not from the machine's own operations; then the statements. -/

namespace Sys2Proof.Spec
open Sys2Proof.Machine

/-! ## Running and completing -/

/-- Where the instruction may run its own effect (it stands where it may stand, and `ext cond` does not skip it), it
completes: the state it leaves is u, completed, going on at the next code. -/
def RunsTo (i : Instr) (s u : State) : Prop := s.Free i → exec i s = .next (u.complete (s.pc + 2))

/-- Two states that differ in the memory at most. -/
def SameButMemory (t u : State) : Prop := { t with mem := u.mem } = u

/-- The instructions one after another, each of which must give a next state. -/
def execAll : List Instr → State → Option State
  | [], s => some s
  | i :: l, s =>
    match exec i s with
    | .next t => execAll l t
    | _ => none

/-! ## Memory (20_memory.md R81, R84) -/

/-- The byte at offset k of a value stored with a size, in one byte order or the other (R81). -/
def storedByte (bigEndian : Bool) (z : Size) (v : Word) (k : Nat) : Byte :=
  BitVec.ofNat 8 (v.toNat / 256 ^ (if bigEndian then z.bytes.toNat - 1 - k else k))

/-- R84: whether an address is not aligned to a size. -/
def unaligned (z : Size) (a : Word) : Prop := a.toNat % z.bytes.toNat ≠ 0

/-- A value of a size, sign- or zero-extended to 32 bits (20_memory.md R82). -/
def widened : Size → Bool → Word → Word
  | .word, _, v => v
  | .byte, false, v => BitVec.ofNat 32 (v.toNat % 256)
  | .byte, true, v => BitVec.ofInt 32 (Int.bmod v.toNat 256)
  | .half, false, v => BitVec.ofNat 32 (v.toNat % 65536)
  | .half, true, v => BitVec.ofInt 32 (Int.bmod v.toNat 65536)

/-- The instruction loads a register from the word, halfword or byte at a logical address that Translate maps. -/
def LoadsAt (i : Instr) (z : Size) (signed : Bool) (rd : Reg) (s : State) (a : Word) : Prop :=
  ∀ p, s.translate .read a = some p → RunsTo i s (s.setReg rd (widened z signed (s.physRead z p)))

/-- The same, and then the base register is the given value. -/
def LoadsThenAdds (i : Instr) (z : Size) (signed : Bool) (rd rb : Reg) (s : State) : Prop :=
  ¬ unaligned z (s.reg rb) → ∀ p, s.translate .read (s.reg rb) = some p →
    RunsTo i s ((s.setReg rd (widened z signed (s.physRead z p))).setReg rb (s.reg rb + s.postIncrement z))

/-- The bytes of a store at a physical address are remembered, until a taken branch or a trap makes them visible to fetches
(20_memory.md R104; the record is the model's, log 4). -/
def noted (s : State) (z : Size) (p : Word) : State :=
  { s with stores := (List.range z.bytes.toNat).map (fun k => p + BitVec.ofNat 32 k) ++ s.stores }

/-- The fetch at physical address p is flagged when one of its two bytes was stored since the last taken branch or trap
(20_memory.md R104; the flag of 92_eei_decisions.md D11, log 4). -/
def flagged (s : State) (p : Word) : State :=
  { s with staleFetch := s.staleFetch || decide (p ∈ s.stores ∨ p + 1 ∈ s.stores) }

/-- Where the instruction may run its own effect, it stores the low bytes of v at a logical address a that Translate maps
to p: every byte outside the z.bytes bytes from p reads as before, and everything but the memory is as the rest u of the
instruction leaves it once the store is remembered. -/
def StoresAt (i : Instr) (z : Size) (s : State) (u : State → State) (a v : Word) : Prop :=
  s.Free i → ∀ p, s.translate .write a = some p →
    ∃ t, exec i s = .next t ∧ SameButMemory t (u (noted s z p)) ∧
      ∀ q : Word, t.byteAt q =
        if (q - p).toNat < z.bytes.toNat then storedByte s.params.bigEndian z v (q - p).toNat else s.byteAt q

/-! ## Flags and results -/

/-- C, V, Z, N of an addition a + b + carry-in (10_state.md R33 to R35, 42_arith.md R250). -/
def addFlags (p : Psr) (a b : Word) (cin : Bool) : Psr :=
  let exact : Int := a.toInt + b.toInt + cin.toNat
  { p with
    c := decide (4294967296 ≤ a.toNat + b.toNat + cin.toNat)
    v := decide (exact < -2147483648 ∨ 2147483647 < exact)
    z := decide (BitVec.ofInt 32 exact = 0#32)
    n := decide ((BitVec.ofInt 32 exact).toInt < 0) }

/-- C, V, Z, N of a subtraction a - b - borrow-in (10_state.md R33 to R35, 42_arith.md R250). -/
def subFlags (p : Psr) (a b : Word) (bin : Bool) : Psr :=
  let exact : Int := a.toInt - b.toInt - bin.toNat
  { p with
    c := decide (a.toNat < b.toNat + bin.toNat)
    v := decide (exact < -2147483648 ∨ 2147483647 < exact)
    z := decide (BitVec.ofInt 32 exact = 0#32)
    n := decide ((BitVec.ofInt 32 exact).toInt < 0) }

/-- N and Z of a logical result, V cleared when OC = 1, C kept (41_logic.md R230). -/
def logicFlags (p : Psr) (res : Word) : Psr :=
  { p with
    n := decide (res.toInt < 0)
    z := decide (res = 0#32)
    v := if p.oc then false else p.v }

/-- A result shifted by 0 to 3 (42_arith.md R253). -/
def postshifted (shift : Option (ShiftOp × BitVec 2)) (res : Word) : Word :=
  match shift with
  | none => res
  | some (.sra, n) => BitVec.ofInt 32 (res.toInt / 2 ^ n.toNat)
  | some (.srl, n) => BitVec.ofNat 32 (res.toNat / 2 ^ n.toNat)
  | some (.sll, n) => BitVec.ofNat 32 (res.toNat * 2 ^ n.toNat)

/-- The state after rd took a sum a + b + cin, shifted, and the flags of the sum (42_arith.md R250, R253). -/
def afterAdd (s : State) (rd : Reg) (shift : Option (ShiftOp × BitVec 2)) (a b : Word) (cin : Bool) : State :=
  { s.setReg rd (postshifted shift (BitVec.ofNat 32 (a.toNat + b.toNat + cin.toNat))) with
    psr := addFlags s.psr a b cin }

/-- The state after rd took a difference a - b - bin, shifted, and the flags of the difference (R250, R253). -/
def afterSub (s : State) (rd : Reg) (shift : Option (ShiftOp × BitVec 2)) (a b : Word) (bin : Bool) : State :=
  { s.setReg rd (postshifted shift (BitVec.ofInt 32 (a.toNat - b.toNat - bin.toNat : Int))) with
    psr := subFlags s.psr a b bin }

/-- The state after rd took a logical result and its flags (41_logic.md R230). -/
def afterLogic (s : State) (rd : Reg) (res : Word) : State :=
  { s.setReg rd res with psr := logicFlags s.psr res }

/-- The state after the stack pointer of the mode took a value, bits 1:0 dropped (10_state.md R37, R38). -/
def withSp (s : State) (v : Word) : State :=
  if s.psr.sv then { s with usp := v &&& 0xFFFFFFFC#32 } else { s with ssp := v &&& 0xFFFFFFFC#32 }

/-- The pair of the result and SOR of a shift or rotate by n (45_shift.md R332, R335): one 64-bit shift, the rotates
with the bits that left put back. -/
def shiftPair (op : Shift) (x : Word) (n : Nat) : Word × Word :=
  let right : BitVec 64 := (x ++ 0#32) >>> n
  let left : BitVec 64 := (0#32 ++ x) <<< n
  match op with
  | .srl => (right.extractLsb' 32 32, right.extractLsb' 0 32)
  | .sra => (BitVec.ofInt 32 (x.toInt / 2 ^ n), right.extractLsb' 0 32)
  | .sll => (left.extractLsb' 0 32, left.extractLsb' 32 32)
  | .sla => (left.extractLsb' 0 32, left.extractLsb' 32 32)
  | .rr => (x.rotateRight n, right.extractLsb' 0 32)
  | .rl => (x.rotateLeft n, left.extractLsb' 32 32)

/-- The bit last shifted out is SOR[31] after a right shift and SOR[0] after a left shift (45_shift.md R332). -/
def lastOut (op : Shift) (sor : Word) : Bool :=
  match op with
  | .srl => sor.getLsbD 31
  | .sra => sor.getLsbD 31
  | .rr => sor.getLsbD 31
  | .sll => sor.getLsbD 0
  | .sla => sor.getLsbD 0
  | .rl => sor.getLsbD 0

/-- The state a shift or rotate of x by n leaves before it completes (45_shift.md R331 to R335). -/
def afterShift (s : State) (op : Shift) (rd : Reg) (x : Word) (n : Nat) : State :=
  let r := shiftPair op x n
  let out := lastOut op r.2
  { s.setReg rd r.1 with
    sor := r.2
    psr := { s.psr with
      z := decide (r.1 = 0#32)
      n := r.1.getLsbD 31
      c := if s.psr.se then out else s.psr.c
      v := if s.psr.se then out != r.1.getLsbD 31 else s.psr.v } }

/-! ## Placement: the manual's lists -/

/-- The instructions of 48_branch.md R396, which may stand in a delay slot. -/
def mayFillSlot : Instr → Bool
  | .ldbReg _ _ | .ldubReg _ _ | .ldhReg _ _ | .lduhReg _ _ | .ldwReg _ _ | .ldwImm _ _ | .ldwSd _ _ | .ldwSs _ _ => true
  | .addReg _ _ | .addImm _ _ | .addSp _ | .addDp _ | .adc _ _ | .subReg _ _ | .subImm _ _ | .subSp _ | .sbc _ _ => true
  | .mltH _ _ | .mltuH _ _ | .cmpReg _ _ | .cmpImm _ _ => true
  | .andReg _ _ | .orReg _ _ | .xorReg _ _ | .notReg _ _ | .andImm _ _ | .orImm _ _ | .xorImm _ _ | .notImm _ _ => true
  | .srlReg _ _ | .sllReg _ _ | .sraReg _ _ | .slaReg _ _ | .rrReg _ _ | .rlReg _ _ => true
  | .srlLow _ _ | .sllLow _ _ | .sraLow _ _ | .slaLow _ _ | .rrLow _ _ | .rlLow _ _ => true
  | .srlHigh _ _ | .sllHigh _ _ | .sraHigh _ _ | .slaHigh _ _ | .rrHigh _ _ | .rlHigh _ _ => true
  | .scan0 _ _ | .scan1 _ _ | .swap _ _ | .swaph _ _ | .mirror _ _ | .macclr => true
  | .satB _ _ | .satUb _ _ | .satH _ _ | .satUh _ _ | .satW _ _ | .satUw _ _ => true
  | .psrset _ | .psrclr _ | .ldcRead _ _ | .ldcWrite _ _ | .ldCf => true
  | _ => false

/-- The branches, plain or delayed: `jr*`, `jp`, `jpr`, `call`. -/
def branchForm : Instr → Option Bool
  | .jrgt d _ => some d | .jrge d _ => some d | .jrlt d _ => some d | .jrle d _ => some d
  | .jrugt d _ => some d | .jruge d _ => some d | .jrult d _ => some d | .jrule d _ => some d
  | .jreq d _ => some d | .jrne d _ => some d | .jpRel d _ => some d | .jpReg d _ => some d
  | .jpr d _ => some d | .callRel d _ => some d | .callReg d _ => some d
  | _ => none

/-- The five prefixes (52_ext.md R520). -/
def isPrefix : Instr → Bool
  | .extImm _ | .extReg _ | .extRegSra _ _ | .extRegSrl _ _ | .extRegSll _ _ | .extSra _ | .extSrl _ | .extSll _ => true
  | .extGt | .extGe | .extLt | .extLe | .extUgt | .extUge | .extUlt | .extUle | .extEq | .extNe => true
  | _ => false

/-- The other control transfers of 52_ext.md R531, on which `ext cond` is invalid too. -/
def isControl : Instr → Bool
  | .ret _ | .reti | .retd | .retm | .int _ | .brk | .slp | .halt => true
  | .loopReg _ _ | .loopRegImm _ _ | .loopImm _ _ | .repeatReg _ | .repeatImm _ => true
  | _ => false

/-- The unrepeatable instructions of 50_loop_repeat.md R476. -/
def unrepeatable (i : Instr) : Bool :=
  isPrefix i || isControl i || (branchForm i).isSome ||
    match i with
    | .nop | .pushn _ | .popn _ | .pushs _ | .pops _ | .mac _ | .macHw _ | .macW _ | .divW _ | .divuW _ => true
    | _ => false

/-- List (c) of 50_loop_repeat.md R472: not at LEA. -/
def notAtLoopEnd (i : Instr) : Bool :=
  isPrefix i || branchForm i == some false ||
    match i with
    | .brk | .int _ | .slp | .halt => true
    | _ => false

/-- List (d) of 50_loop_repeat.md R472: neither at LEA nor at LEA - 2. -/
def notNearLoopEnd (i : Instr) : Bool := branchForm i == some true

/-! ## Instructions that neither access memory nor take an exception -/

/-- The register, flag, prefix, coprocessor, jump and loop instructions: no load, store, stack or bit operation, no
division that can trap, no exception instruction. -/
def isQuiet (i : Instr) : Bool :=
  isPrefix i || mayFillSlot i ||
    match i with
    | .callRel _ _ | .callReg _ _ => false
    | .nop | .slp | .halt | .doC _ | .mltHw _ _ | .mltW _ _ | .mltuW _ _ | .div1 _ | .div2s _ | .div3s => true
    | .mac1H _ _ | .mac1Hw _ _ | .mac1W _ _ => true
    | .loopReg _ _ | .loopRegImm _ _ | .loopImm _ _ | .repeatReg _ | .repeatImm _ => true
    | i => (branchForm i).isSome

/-- The quiet instructions that write ALR or AHR, `ld.w %sd,%rs` aside (43_muldiv.md, 44_mac.md). -/
def writesAccumulator : Instr → Bool
  | .mltH _ _ | .mltuH _ _ | .mltHw _ _ | .mltW _ _ | .mltuW _ _ | .div1 _ | .div2s _ | .div3s => true
  | .mac1H _ _ | .mac1Hw _ _ | .mac1W _ _ | .macclr => true
  | _ => false

/-- The shifts and rotates, which write SOR (45_shift.md). -/
def isShift : Instr → Bool
  | .srlReg _ _ | .sllReg _ _ | .sraReg _ _ | .slaReg _ _ | .rrReg _ _ | .rlReg _ _ => true
  | .srlLow _ _ | .sllLow _ _ | .sraLow _ _ | .slaLow _ _ | .rrLow _ _ | .rlLow _ _ => true
  | .srlHigh _ _ | .sllHigh _ _ | .sraHigh _ _ | .slaHigh _ _ | .rrHigh _ _ | .rlHigh _ _ => true
  | _ => false

/-- `loop` (50_loop_repeat.md R461 to R463). -/
def isLoop : Instr → Bool
  | .loopReg _ _ | .loopRegImm _ _ | .loopImm _ _ => true
  | _ => false

/-- `repeat` (50_loop_repeat.md R473, R474). -/
def isRepeat : Instr → Bool
  | .repeatReg _ | .repeatImm _ => true
  | _ => false

/-! ## The accumulator (10_state.md R21) -/

/-- `writeALR(v)`. -/
def withAlr (s : State) (v : Word) : State :=
  if s.psr.lc then ({ s with alr := v } : State).setReg 4#4 v else { s with alr := v }

/-- `writeAHR(v)`. -/
def withAhr (s : State) (v : Word) : State :=
  if s.psr.hc then ({ s with ahr := v } : State).setReg 5#4 v else { s with ahr := v }

/-- AHR and ALR take the low 64 bits of an integer, the high word in AHR. -/
def withAcc (s : State) (x : Int) : State :=
  withAlr (withAhr s (BitVec.ofInt 32 (x / 4294967296))) (BitVec.ofInt 32 x)

/-- The 64-bit accumulator as a signed integer (44_mac.md R310). -/
def accumulator (s : State) : Int := s.ahr.toInt * 4294967296 + s.alr.toNat

/-- The low halfword of a word as a signed integer. -/
def lowHalf (v : Word) : Int := Int.bmod v.toNat 65536

/-- `macstep(x, y)` (44_mac.md R310). -/
def accumulate (s : State) (x y : Int) : State :=
  let sum := accumulator s + x * y
  let t := withAcc s sum
  { t with psr := { s.psr with
      mo := s.psr.mo || decide (9223372036854775807 < sum ∨ sum < -9223372036854775808) } }

/-- A memory operand of `mac` as a signed integer (44_mac.md R313). -/
def signedAt (s : State) (z : Size) (p : Word) : Int :=
  match z with
  | .byte => Int.bmod (s.physRead .byte p).toNat 256
  | .half => lowHalf (s.physRead .half p)
  | .word => (s.physRead .word p).toInt

/-- R4 or R5, when it is a mirror and a register of the `mac` at once, takes a free value (44_mac.md R317; the model's
choice, log 27). -/
def loseMirror (s : State) (on : Bool) (r rs : Reg) : State :=
  if on = true ∧ (r = rs ∨ r = rs + 1 ∨ r = rs + 2) then
    ({ s with free := s.free + 1 } : State).setReg r (Config.freeWord s.free)
  else s

/-- One pass of `mac` with operand sizes z1, z2 (44_mac.md R313), if both operands can be read. -/
def macStepOf (rs : Reg) (z1 z2 : Size) (s : State) : Option State :=
  let a1 := s.reg (rs + 1)
  let a2 := s.reg (rs + 2)
  if a1.toNat % z1.bytes.toNat ≠ 0 ∨ a2.toNat % z2.bytes.toNat ≠ 0 then none
  else
    match s.translate .read a1, s.translate .read a2 with
    | some p1, some p2 =>
      let u := accumulate s (signedAt s z1 p1) (signedAt s z2 p2)
      let u := u.setReg (rs + 1) (u.reg (rs + 1) + z1.bytes)
      let u := u.setReg (rs + 2) (u.reg (rs + 2) + z2.bytes)
      let u := u.setReg rs (u.reg rs - 1)
      some (loseMirror (loseMirror u s.psr.lc 4#4 rs) s.psr.hc 5#4 rs)
    | _, _ => none

/-- So many passes of `mac`. -/
def macSteps (rs : Reg) (z1 z2 : Size) : Nat → State → Option State
  | 0, s => some s
  | n + 1, s => (macStepOf rs z1 z2 s).bind (macSteps rs z1 z2 n)

/-- The counter register and the operand sizes of the three repeated accumulations (R314 to R316). -/
def macForm : Instr → Option (Reg × Size × Size)
  | .mac rs => some (rs, .half, .half)
  | .macHw rs => some (rs, .word, .half)
  | .macW rs => some (rs, .word, .word)
  | _ => none

/-- The counter rs is no register the accumulator is mirrored to (R317). -/
def CounterKept (s : State) (rs : Reg) : Prop := (s.psr.lc = true → rs ≠ 4) ∧ (s.psr.hc = true → rs ≠ 5)

/-- Which of the two reads of a pass is the first that cannot be performed, and why: true for a misaligned address, false for
a miss in Translate; none when both can (R313). -/
def macFailure (s : State) (rs : Reg) (z1 z2 : Size) : Option Bool :=
  let fails := fun (z : Size) (a : Word) =>
    if a.toNat % z.bytes.toNat ≠ 0 then some true
    else if s.translate .read a = none then some false
    else none
  match fails z1 (s.reg (rs + 1)) with
  | some b => some b
  | none => fails z2 (s.reg (rs + 2))

/-! ## Division (43_muldiv.md R289) -/

/-- `div1` on the 64-bit pair and 33-bit values, as the rule prints it. -/
def divisionBy (ds n : Bool) (ahr alr d : Word) : Word × Word :=
  let pair : BitVec 64 := (ahr ++ alr) <<< 1
  let high : Word := pair.extractLsb' 32 32
  let low : Word := pair.extractLsb' 0 32
  let a : Nat := (if ds then 4294967296 else 0) + high.toNat
  let b : Nat := (if n then 4294967296 else 0) + d.toNat
  let tmp : Nat := (if ds = n then a + (8589934592 - b) else a + b) % 8589934592
  if decide (4294967296 ≤ tmp) = ds then (BitVec.ofNat 32 tmp, low + 1) else (high, low)

/-! ## Stack (47_pushpop.md R370 to R379) -/

/-- `pushstep`. -/
def push1 (v : Word) (s : State) : Option State :=
  (s.translate .write (s.sp - 4)).map fun p => withSp ((noted s .word p).physWrite .word p v) (s.sp - 4)

/-- `pushstep` of each value in turn. -/
def pushAll : List Word → State → Option State
  | [], s => some s
  | v :: l, s => (push1 v s).bind (pushAll l)

/-- `popstep`, its word given to k. -/
def pop1 (s : State) (k : Word → State → Option State) : Option State :=
  (s.translate .read s.sp).bind fun p => k (s.physRead .word p) (withSp s (s.sp + 4))

/-- So many registers from n up (R376). -/
def popRegs : Nat → Nat → State → Option State
  | 0, _, s => some s
  | k + 1, n, s => pop1 s fun v t => popRegs k (n + 1) (t.setReg (BitVec.ofNat 4 n) v)

/-- The word `pushs` writes for a number from 2 to 15 (R377, R378). -/
def specialWord (s : State) (n : Nat) : Word × State :=
  match n with
  | 2 => (s.alr, s)
  | 3 => (s.ahr, s)
  | 4 => (s.lco, s)
  | 5 => (s.lsa, s)
  | 6 => (s.lea, s)
  | 7 => (s.sor, s)
  | 8 => (s.ttbr, s)
  | 9 => (s.dp, s)
  | _ => (Config.freeWord s.free, { s with free := s.free + 1 })

/-- So many special registers from number n down (R377). -/
def pushSpecials : Nat → Nat → State → Option State
  | 0, _, s => some s
  | k + 1, n, s => (push1 (specialWord s n).1 (specialWord s n).2).bind (pushSpecials k (n - 1))

/-- `restore(n, v)` of R379 for numbers from 2. -/
def restored (s : State) (n : Nat) (v : Word) : State :=
  match n with
  | 2 => { s with alr := v }
  | 3 => { s with ahr := v }
  | 4 => { s with lco := v }
  | 5 => { s with lsa := v }
  | 6 => { s with lea := v }
  | 7 => { s with sor := v }
  | 8 => if s.psr.sv = false ∨ s.psr.me = true then { s with ttbr := v &&& 0xFFFFFC00#32 } else s
  | 9 => { s with dp := v &&& 0xFFFFFFFC#32 }
  | _ => s

/-- So many special registers from number n up (R379). -/
def popSpecials : Nat → Nat → State → Option State
  | 0, _, s => some s
  | k + 1, n, s => pop1 s fun v t => popSpecials k (n + 1) (restored t n v)

/-! ## Sequences and the host (47_pushpop.md R375 to R380, 60_exceptions.md R568) -/

/-- The number a successive push or pop starts at, RC when PM = 1, and how many parts it has. A start at PSR or SP, or above the
last register of a pop, which only a forged PSR can give (log 25), has none here. -/
def sequence (s : State) : Instr → Nat × Nat
  | .pushn r => let n := (if s.psr.pm then s.psr.rc else r).toNat; (n, n + 1)
  | .popn r => let n := (if s.psr.pm then s.psr.rc else 0).toNat; (n, r.toNat + 1 - n)
  | .pushs r => let n := (if s.psr.pm then s.psr.rc else r).toNat; (n, n - 1)
  | .pops r => let n := (if s.psr.pm then s.psr.rc else 2).toNat; (n, if n < 2 then 0 else r.toNat + 1 - n)
  | _ => (0, 0)

/-- The number of the part after k parts: the pushes go down, the pops up. -/
def partNumber (i : Instr) (n k : Nat) : Nat :=
  match i with
  | .popn _ => n + k
  | .pops _ => n + k
  | _ => n - k

/-- The first k parts of a successive push or pop that starts at number n. -/
def partsDone (i : Instr) (n k : Nat) (s : State) : Option State :=
  match i with
  | .pushn _ => pushAll ((List.range k).map fun j => s.reg (BitVec.ofNat 4 (n - j))) s
  | .popn _ => popRegs k n s
  | .pushs _ => pushSpecials k n s
  | .pops _ => popSpecials k n s
  | _ => none

/-- Whether a successive push or pop may start: `pushs` not in the `macclr` window (70_reset_and_hazards.md R643), `pops` of LCO
or above with LM = 0 and RM = 0 (50_loop_repeat.md R481 c). -/
def MayStart (i : Instr) (s : State) : Prop :=
  match i with
  | .pushs _ => s.macWindow = 0
  | .pops r => 4 ≤ r.toNat → s.psr.lm = false ∧ s.psr.rm = false
  | _ => True

/-- A sequence marked for its resumption at a number: PM = 1 and the number in RC (R380). -/
def marked (s : State) (n : Nat) : State := { s with psr := { s.psr with pm := true, rc := BitVec.ofNat 4 n } }

/-- At the next k boundaries the host asserts no reset, nor, while no prefix is pending, anything else. (With prefixes pending
nothing but reset is accepted, 52_ext.md R534 a, D31.) -/
def Undisturbed (s : State) (k : Nat) : Prop :=
  ∀ input ∈ s.inputs.take k, input.reset = none ∧ (s.ext.count = 0 → input = HostInput.none)

/-- With the inputs of the first k boundaries used up. -/
def waited (s : State) (k : Nat) : State := { s with inputs := s.inputs.drop k }

/-! ## Branches (48_branch.md R392 to R394, R398) -/

/-- The condition of a conditional jump on the flags, as Table 5.16.1.1 of R392 prints it. -/
def conditionTrue (c : Cond) (p : Psr) : Bool :=
  match c with
  | .gt => decide (p.z = false ∧ p.n = p.v)
  | .ge => decide (p.n = p.v)
  | .lt => decide (p.n ≠ p.v)
  | .le => decide (p.z = true ∨ p.n ≠ p.v)
  | .ugt => decide (p.z = false ∧ p.c = false)
  | .uge => decide (p.c = false)
  | .ult => decide (p.c = true)
  | .ule => decide (p.z = true ∨ p.c = true)
  | .eq => decide (p.z = true)
  | .ne => decide (p.z = false)

/-- What a condition says of A and B after `cmp A,B` (R392). -/
def comparison (c : Cond) (a b : Word) : Prop :=
  match c with
  | .gt => a.toInt > b.toInt
  | .ge => a.toInt ≥ b.toInt
  | .lt => a.toInt < b.toInt
  | .le => a.toInt ≤ b.toInt
  | .ugt => a.toNat > b.toNat
  | .uge => a.toNat ≥ b.toNat
  | .ult => a.toNat < b.toNat
  | .ule => a.toNat ≤ b.toNat
  | .eq => a = b
  | .ne => a ≠ b

/-- The conditional jump of a condition (R400 to R409). -/
def jr (c : Cond) (d : Bool) (sign8 : BitVec 8) : Instr :=
  match c with
  | .gt => .jrgt d sign8
  | .ge => .jrge d sign8
  | .lt => .jrlt d sign8
  | .le => .jrle d sign8
  | .ugt => .jrugt d sign8
  | .uge => .jruge d sign8
  | .ult => .jrult d sign8
  | .ule => .jrule d sign8
  | .eq => .jreq d sign8
  | .ne => .jrne d sign8

/-- A branch has completed: the plain form goes on at its target or at the next code; the delayed form goes on at the next
code, the slot, and after it at its target or at the code after the slot (R393, R394). A plain branch that is taken makes the
stores so far visible to fetches (20_memory.md R104). -/
def branched (s : State) (d taken : Bool) (target : Word) : State :=
  if d then
    { s with
      pc := s.pc + 2
      delay := some (if taken then target else s.pc + 4)
      ext := Ext.empty
      dsWindow := s.dsWindow - 1
      macWindow := s.macWindow - 1 }
  else if taken then ({ s with stores := [] } : State).complete target
  else s.complete (s.pc + 2)

/-- An address with bit 0 made 0 (R398, 10_state.md R24). -/
def even (a : Word) : Word := BitVec.ofNat 32 (a.toNat / 2 * 2)

/-! ## Exceptions (60_exceptions.md R563, R570, R590, R595) -/

/-- The address of vector n (R563). -/
def vector (s : State) (n : Nat) : Word := BitVec.ofNat 32 (s.ttbr.toNat / 1024 * 1024 + 4 * n)

/-- The state after trap entry (R570): ret at the physical address p1, PSR at p2, the vector at p3. -/
def entered (s : State) (level : Option (BitVec 4)) (nmi : Bool) (ret p1 p2 p3 : Word) : State :=
  let m := (s.physWrite .word p1 ret).physWrite .word p2 s.psr.toWord
  { m with
    ssp := s.ssp - 8
    psr := { s.psr with
      ie := false
      il := level.getD s.psr.il
      sv := false
      rm := false
      lm := false
      pm := false }
    nmiInService := s.nmiInService || nmi
    ext := Ext.empty
    delay := none
    run := .running
    stores := []
    pc := even (m.physRead .word p3) }

/-- The accesses of a trap entry through vector n go to these physical addresses; the vector is read in supervisor mode. -/
def EntryMaps (s : State) (n : Nat) (p1 p2 p3 : Word) : Prop :=
  s.translate .write (s.ssp - 4) = some p1 ∧ s.translate .write (s.ssp - 8) = some p2 ∧
    ({ s with psr := { s.psr with sv := false } } : State).translate .read (vector s n) = some p3

/-- The state after MMU exception entry (R590). -/
def mmuEntered (s : State) (ret : Word) : State :=
  let m := (s.physWrite .word 0x18#32 ret).physWrite .word 0x1C#32 (s.reg 0)
  { m with
    psr := { s.psr with me := true }
    ext := Ext.empty
    delay := none
    run := .running
    stores := []
    pc := even (m.physRead .word 0x10#32) }

/-- DEBUG_BASE (R595). -/
def debugBase (s : State) : Word := if s.params.debugBaseLow then 0#32 else 0x00060000#32

/-- The state after debug exception entry (R595). -/
def debugEntered (s : State) (ret : Word) : State :=
  let m := (s.physWrite .word (debugBase s + 8) ret).physWrite .word (debugBase s + 12) (s.reg 0)
  { m with
    psr := { s.psr with de := true }
    ext := Ext.empty
    delay := none
    stores := []
    pc := even (m.physRead .word (debugBase s)) }

/-- The address p an instruction restarts at, and the state t once it is known (52_ext.md R534 b, d): its own address or its
first prefix; with seven or more prefixes some halfword address of the series, a free value. -/
def RestartsAt (s : State) (p : Word) (t : State) : Prop :=
  if s.ext.count < 7 then p = s.ext.start.getD s.pc ∧ t = s
  else (∃ k, k < s.ext.count ∧ p = s.ext.start.getD s.pc + 2 * BitVec.ofNat 32 k) ∧ t = { s with free := s.free + 1 }

/-- What an instruction does when an access cannot be performed and s is the state before that access's part of it: a misaligned
address takes vector 6 (60_exceptions.md R574), a miss the MMU exception (R590), from s, the restart address saved; inside a
handler the machine stops (R569, R598; log 19). -/
def Aborts (i : Instr) (before s : State) (misaligned : Bool) : Prop :=
  if misaligned then
    (s.psr.me = false → s.psr.de = false → ∀ p1 p2 p3, EntryMaps s 6 p1 p2 p3 →
      ∃ p t, RestartsAt s p t ∧ exec i before = .next (entered t none false p p1 p2 p3)) ∧
    (s.psr.me = true ∨ s.psr.de = true → exec i before = .fault (.exceptionInHandler .addressMisaligned))
  else
    (s.psr.de = false → ∃ p t, RestartsAt s p t ∧ exec i before = .next (mmuEntered t p)) ∧
    (s.psr.de = true → exec i before = .fault (.exceptionInHandler .mmu))

/-- The event of an input that the core accepts in state s outside handlers, and the state t it gives, ret saved: a debug break,
else an NMI neither masked nor in service, else a request with IE = 1 and a level above IL (60_exceptions.md R562, R568, R584 to
R586, R595). -/
def Takes (input : HostInput) (s : State) (ret : Word) (t : State) : Prop :=
  if input.debugBreak = true then t = debugEntered s ret
  else if input.nmi = true ∧ s.nmiMasked = false ∧ s.nmiInService = false then
    ∃ p1 p2 p3, EntryMaps s 7 p1 p2 p3 ∧ t = entered s none true ret p1 p2 p3
  else
    ∃ r p1 p2 p3, input.request = some r ∧ s.psr.ie = true ∧ s.psr.il.toNat < r.level.toNat ∧
      EntryMaps s (16 + r.source.val) p1 p2 p3 ∧ t = entered s (some r.level) false ret p1 p2 p3

/-- The state of an instruction that has completed: no prefix, no pending branch, the read windows one shorter. -/
def retired (s : State) : State :=
  { s with ext := Ext.empty, delay := none, dsWindow := s.dsWindow - 1, macWindow := s.macWindow - 1 }

/-! ## Special registers (10_state.md R28, R29, R47, R48) -/

/-- Supervisor write rights: SV = 0, or ME = 1 (60_exceptions.md R592 d). -/
def mayWriteAll (p : Psr) : Bool := decide (p.sv = false ∨ p.me = true)

/-- The PSR bits an explicit write changes (R29). -/
def writableBits (p : Psr) : Word := if mayWriteAll p then 0xFF739FDF#32 else 0x7F7380CF#32

/-- Special register n after `ld.w %sd,%rs` with the value v (R29, R38, R40, R41, R47, R48). -/
def specialWritten (s : State) (n : SReg) (v : Word) : State :=
  match n.toNat with
  | 0 => s.writePsr v
  | 1 => { withSp s v with nmiMasked := false }
  | 2 => { s with alr := v }
  | 3 => { s with ahr := v }
  | 4 => { s with lco := v }
  | 5 => { s with lsa := v }
  | 6 => { s with lea := v }
  | 7 => { s with sor := v }
  | 8 => if mayWriteAll s.psr then { s with ttbr := v &&& 0xFFFFFC00#32 } else s
  | 9 => { s with dp := v &&& 0xFFFFFFFC#32 }
  | 13 => { s with usp := v &&& 0xFFFFFFFC#32 }
  | 14 => if mayWriteAll s.psr then { s with ssp := v &&& 0xFFFFFFFC#32 } else s
  | _ => s

/-- The value of special register n for `ld.w %rd,%ss`, and the state with the free value it took, if it took one (R26, R45
to R48, 70_reset_and_hazards.md R642). -/
def specialRead (s : State) (n : SReg) : Word × State :=
  let draw : State := { s with free := s.free + 1 }
  match n.toNat with
  | 0 =>
    if s.dsWindow = 0 then (s.psr.toWord, s)
    else ((s.psr.toWord &&& ~~~0x40#32) ||| (Config.freeWord s.free &&& 0x40#32), draw)
  | 1 => (if s.psr.sv then s.usp else s.ssp, s)
  | 2 => (s.alr, s)
  | 3 => (s.ahr, s)
  | 4 => (s.lco, s)
  | 5 => (s.lsa, s)
  | 6 => (s.lea, s)
  | 7 => (s.sor, s)
  | 8 => (s.ttbr, s)
  | 9 => (s.dp, s)
  | 10 => (BitVec.ofNat 32 (0x04000000 + Config.idirRevision.toNat * 65536), s)
  | 11 => (0x00060000#32, s)
  | 12 => (Config.freeWord s.free, draw)
  | 13 => (s.usp, s)
  | 14 => (s.ssp, s)
  | _ => (s.pc + 2, s)

/-! ## The prefix record (52_ext.md R521, R522) -/

/-- One more prefix at the pc. -/
def counted (s : State) (e : Ext) : Ext :=
  { e with start := if s.ext.count = 0 then some s.pc else s.ext.start, count := s.ext.count + 1 }

/-- The prefix is legal and adds the given parts to the record, or it is illegal and the machine stops. -/
def Prefixes (i : Instr) (s : State) (legal : Prop) (e : Ext) : Prop :=
  s.misplaced i = none →
    (legal → exec i s = .next { s with ext := counted s e, pc := s.pc + 2 }) ∧
    (¬ legal → exec i s = .fault .illegalExtSeries)

/-! ## Scan (49_misc.md R441) -/

/-- The least position below the width whose bit, counted from bit 31, is t, or the width. -/
def scanPosition (t : Bool) (x : Word) (width : Nat) : Nat :=
  ((List.range width).find? fun k => x.getLsbD (31 - k) == t).getD width

/-! ## Single accesses and their addresses -/

/-- The access of an instruction that makes one access to memory, or its first one: the kind, the size, the address,
and whether its alignment is checked. -/
def access (s : State) : Instr → Option (AccessKind × Size × Word × Bool)
  | .ldbInd _ rb => some (.read, .byte, s.reg rb + s.extDisp, true)
  | .ldubInd _ rb => some (.read, .byte, s.reg rb + s.extDisp, true)
  | .ldhInd _ rb => some (.read, .half, s.reg rb + s.extDisp, true)
  | .lduhInd _ rb => some (.read, .half, s.reg rb + s.extDisp, true)
  | .ldwInd _ rb => some (.read, .word, s.reg rb + s.extDisp, true)
  | .ldbInc _ rb => some (.read, .byte, s.reg rb, true)
  | .ldubInc _ rb => some (.read, .byte, s.reg rb, true)
  | .ldhInc _ rb => some (.read, .half, s.reg rb, true)
  | .lduhInc _ rb => some (.read, .half, s.reg rb, true)
  | .ldwInc _ rb => some (.read, .word, s.reg rb, true)
  | .stbInd rb _ => some (.write, .byte, s.reg rb + s.extDisp, true)
  | .sthInd rb _ => some (.write, .half, s.reg rb + s.extDisp, true)
  | .stwInd rb _ => some (.write, .word, s.reg rb + s.extDisp, true)
  | .stbInc rb _ => some (.write, .byte, s.reg rb, true)
  | .sthInc rb _ => some (.write, .half, s.reg rb, true)
  | .stwInc rb _ => some (.write, .word, s.reg rb, true)
  | .ldbSp _ i => some (.read, .byte, s.sp + s.ext.baseDisp .byte i, false)
  | .ldubSp _ i => some (.read, .byte, s.sp + s.ext.baseDisp .byte i, false)
  | .ldhSp _ i => some (.read, .half, s.sp + s.ext.baseDisp .half i, false)
  | .lduhSp _ i => some (.read, .half, s.sp + s.ext.baseDisp .half i, false)
  | .ldwSp _ i => some (.read, .word, s.sp + s.ext.baseDisp .word i, false)
  | .stbSp i _ => some (.write, .byte, s.sp + s.ext.baseDisp .byte i, false)
  | .sthSp i _ => some (.write, .half, s.sp + s.ext.baseDisp .half i, false)
  | .stwSp i _ => some (.write, .word, s.sp + s.ext.baseDisp .word i, false)
  | .ldbDp _ i => some (.read, .byte, s.dp + s.ext.baseDisp .byte i, false)
  | .ldubDp _ i => some (.read, .byte, s.dp + s.ext.baseDisp .byte i, false)
  | .ldhDp _ i => some (.read, .half, s.dp + s.ext.baseDisp .half i, false)
  | .lduhDp _ i => some (.read, .half, s.dp + s.ext.baseDisp .half i, false)
  | .ldwDp _ i => some (.read, .word, s.dp + s.ext.baseDisp .word i, false)
  | .stbDp i _ => some (.write, .byte, s.dp + s.ext.baseDisp .byte i, false)
  | .sthDp i _ => some (.write, .half, s.dp + s.ext.baseDisp .half i, false)
  | .stwDp i _ => some (.write, .word, s.dp + s.ext.baseDisp .word i, false)
  | .btst rb _ => some (.read, .byte, s.reg rb + s.ext.immDisp, false)
  | .bclr rb _ => some (.read, .byte, s.reg rb + s.ext.immDisp, false)
  | .bset rb _ => some (.read, .byte, s.reg rb + s.ext.immDisp, false)
  | .bnot rb _ => some (.read, .byte, s.reg rb + s.ext.immDisp, false)
  | .push _ => some (.write, .word, s.sp - 4, false)
  | .pop _ => some (.read, .word, s.sp, false)
  | .callRel _ _ => some (.write, .word, s.sp - 4, false)
  | .callReg _ _ => some (.write, .word, s.sp - 4, false)
  | .ret _ => some (.read, .word, s.sp, false)
  | .reti => some (.read, .word, s.ssp + 4, false)
  | _ => none

end Sys2Proof.Spec

section Statements
open Sys2Proof Sys2Proof.Machine Sys2Proof.Spec

/-- Codes written out bit by bit decode to the instructions they stand for. Codes written bit by bit from the
encodings of 30_encoding.md and the family files. -/
def Obligations.DecodeSampleWords : Prop :=
  decodeHalf 0b0000000000000000#16 = some .nop ∧
  decodeHalf 0b0010111001010100#16 = some (.ldwReg 4 5) ∧
  decodeHalf 0b1010010011110010#16 = some (.ldwSs 2 15) ∧
  decodeHalf 0b0011000000100001#16 = some (.ldwInd 1 2) ∧
  decodeHalf 0b0101110000010011#16 = some (.stwSp 1 3) ∧
  decodeHalf 0b0011001000110111#16 = some (.andReg 7 3) ∧
  decodeHalf 0b0010001001010100#16 = some (.addReg 4 5) ∧
  decodeHalf 0b1001001100010000#16 = some (.div1 1) ∧
  decodeHalf 0b1010011100100001#16 = some (.mac1H 1 2) ∧
  decodeHalf 0b1000100000110001#16 = some (.srlLow 1 3) ∧
  decodeHalf 0b1011010000100101#16 = some (.bnot 2 5) ∧
  decodeHalf 0b0000001000000011#16 = some (.pushn 3) ∧
  decodeHalf 0b0000100110000000#16 = some (.jrgt true 0x80) ∧
  decodeHalf 0b1001001000010000#16 = some (.swap 0 1) ∧
  decodeHalf 0b0000001011010111#16 = some (.repeatImm 7) ∧
  decodeHalf 0b1011111101010110#16 = some (.psrset 22) ∧
  decodeHalf 0b0011111100110000#16 = some (.extReg 3) ∧
  decodeHalf 0b1101111111111111#16 = some (.extImm 0x1FFF) ∧
  decodeHalf 0b0000010010000010#16 = some (.int 2)

/-- Decoding the encoding of any well-formed instruction gives the instruction back, in both byte orders. The decoder
undoes the encoder on every well-formed instruction, in both byte orders (30_encoding.md; byte order 20_memory.md R81,
R87). It rests on choices, the spec's where a D is named, else the model's: the byte order of codes (D1, D8, log 3).
-/
def Obligations.DecodeOfEncode : Prop :=
  ∀ (i : Instr) (bigEndian : Bool) (rest : List Byte), i.WellFormed →
    decode bigEndian (encode bigEndian i ++ rest) = .ok (i, rest)

/-- Every code the decoder accepts is the encoding of the well-formed instruction it gives. Each code has one meaning
(30_encoding.md). It rests on choices, the spec's where a D is named, else the model's: a code with a filler bit set
is no instruction (D3 in R135, log 18). -/
def Obligations.EncodeOfDecode : Prop :=
  ∀ (w : Half) (i : Instr), decodeHalf w = some i → i.WellFormed ∧ encodeHalf i = w

/-- A step of a running core with nothing to accept runs the instruction whose code is at the pc. Fetch (20_memory.md
R87) and the boundary before it (60_exceptions.md R568). That a code stored too shortly before runs as memory has it,
and is flagged, is the choice R104 and D11 offer a simple model (log 4). It rests on choices, the spec's where a D is
named, else the model's: the byte order of codes (D8, log 3), inputs examined at boundaries (D9, log 6). -/
def Obligations.StepRunsDecoded : Prop :=
  ∀ (s : State) (p : Word) (i : Instr),
    s.run = .running → s.translate .fetch s.pc = some p →
    decode s.params.bigEndian [s.byteAt p, s.byteAt (p + 1)] = .ok (i, []) →
    (s.inputs = [] → step s = exec i (flagged s p)) ∧
    (∀ input rest, s.inputs = input :: rest → input.reset = none →
      ({ s with inputs := rest } : State).boundaryEvent input = none →
      step s = exec i (flagged { s with inputs := rest } p))

/-- A code in no table stops the machine; a fetch that misses takes the MMU exception with the fetched address saved.
R134 of 30_encoding.md (the model faults, D3) and R590 of 60_exceptions.md: "for a miss on an instruction fetch, the
address being fetched". What becomes of a pending delayed branch is the model's choice (log 15); the stop inside a
debug handler is D29 (log 19). It rests on choices, the spec's where a D is named, else the model's: the stop on a
code in no table (D3, log 18), a missed fetch saves its own address, not that of the first prefix (log 14). -/
def Obligations.FetchStops : Prop :=
  ∀ s : State, s.run = .running → s.inputs = [] →
    (∀ p, s.translate .fetch s.pc = some p →
      decodeHalf (codeOfBytes s.params.bigEndian (s.byteAt p) (s.byteAt (p + 1))) = none →
      step s = .fault (.unassignedCode (codeOfBytes s.params.bigEndian (s.byteAt p) (s.byteAt (p + 1))))) ∧
    (s.translate .fetch s.pc = none →
      (s.psr.de = false → step s = .next (mmuEntered s s.pc)) ∧
      (s.psr.de = true → step s = .fault (.exceptionInHandler .mmu)))

/-- The machine after a cold reset: PSR 0, TTBR 0x20000000, the pc from the reset vector, NMI masked, running. The
values 10_state.md R49 and 70_reset_and_hazards.md R620 give; what they call indeterminate is the model's choice (log
1, log 2) and is not stated. -/
def Obligations.ResetState : Prop :=
  State.reset.psr.toWord = 0#32 ∧ State.reset.ttbr = 0x20000000#32 ∧
  State.reset.pc = even (State.reset.physRead .word 0x20000000#32) ∧
  State.reset.nmiMasked = true ∧ State.reset.nmiInService = false ∧
  State.reset.ext = Ext.empty ∧ State.reset.delay = none ∧ State.reset.run = .running

/-- Reset in any state initialises the core and keeps memory; on release the pc is loaded from the reset vector. R620
of 70_reset_and_hazards.md in its two phases (assertion and release). The split, the free values of what the manual
calls indeterminate, and the closed windows are log 8; the fixed bits are R38 and R40 of 10_state.md. It rests on
choices, the spec's where a D is named, else the model's: the reset in two steps (log 8), inputs examined at
boundaries and those beside the release not taken (D9, log 6), the coprocessor history unchanged, since the manual
does not say that #RESET reaches the coprocessor (log 10), the record of stored bytes emptied and the flag of stale
fetches kept (D11, log 4), the miss of the reset vector (log 20). -/
def Obligations.ResetDuringRun : Prop :=
  (∀ (s : State) (input : HostInput) (rest : List HostInput) (kind : ResetKind),
    s.inputs = input :: rest → input.reset = some kind →
    ∃ t, step s = .next t ∧ t.psr = Psr.zero ∧ t.run = .reset ∧ t.ext = Ext.empty ∧ t.delay = none ∧
      t.nmiMasked = true ∧ t.nmiInService = false ∧
      t.ttbr = (match kind with
        | .cold => 0x20000000#32
        | .hot => s.ttbr) ∧
      (∀ n, t.reg n = Config.freeWord (s.free + n.toNat)) ∧
      t.ssp = Config.freeWord (s.free + 16) &&& 0xFFFFFFFC#32 ∧ t.usp = Config.freeWord (s.free + 17) &&& 0xFFFFFFFC#32 ∧
      t.alr = Config.freeWord (s.free + 18) ∧ t.ahr = Config.freeWord (s.free + 19) ∧
      t.lco = Config.freeWord (s.free + 20) ∧ t.lsa = Config.freeWord (s.free + 21) ∧
      t.lea = Config.freeWord (s.free + 22) ∧ t.sor = Config.freeWord (s.free + 23) ∧
      t.dp = Config.freeWord (s.free + 24) &&& 0xFFFFFFFC#32 ∧ t.free = s.free + 25 ∧
      t.dsWindow = 0 ∧ t.macWindow = 0 ∧ t.stores = [] ∧ t.staleFetch = s.staleFetch ∧
      t.mem = s.mem ∧ t.cop = s.cop ∧ t.params = s.params ∧ t.inputs = rest) ∧
  (∀ (s : State) (rest : List HostInput), s.run = .reset →
    (s.inputs = [] ∧ rest = []) ∨ (∃ input, s.inputs = input :: rest ∧ input.reset = none) →
    let t : State := { s with inputs := rest }
    (∀ p, t.translate .read (vector t 0) = some p →
      step s = .next { t with run := .running, pc := even (t.physRead .word p) }) ∧
    (t.translate .read (vector t 0) = none → s.psr.de = false → step s = .next (mmuEntered t s.pc)) ∧
    (t.translate .read (vector t 0) = none → s.psr.de = true → step s = .fault (.exceptionInHandler .mmu)))

/-- The state after reset is well kept. The fixed bits of 10_state.md R24, R38, R40, R41 and the canonical memory of
the model (log 2) hold at reset. -/
def Obligations.ResetWellKept : Prop :=
  State.reset.WellKept

/-- Every step keeps the machine well kept: the fixed register bits stay 0 and memory stays canonical. R24, R38, R40,
R41 of 10_state.md, R522 of 52_ext.md; the canonical form of memory is the model's (log 2). It rests on choices, the
spec's where a D is named, else the model's: the prefix record and its series (D12, D20, log 13). -/
def Obligations.StepKeepsWellKept : Prop :=
  ∀ s t : State, s.WellKept → step s = .next t → t.WellKept

/-- No step changes the parameters of the machine. BIG_ENDIAN and Translate are parameters of 00_scope.md R7,
DEBUG_BASE of 92_eei_decisions.md. It rests on choices, the spec's where a D is named, else the model's: that byte
order (D1, log 3), translation (D6, log 5) and debug base (D24, log 12) do not change during a run. -/
def Obligations.StepKeepsParameters : Prop :=
  ∀ s t : State, step s = .next t → t.params = s.params

/-- A user-mode instruction cannot change HE, SV, IL, IE, TTBR or SSP, except by entering a handler through the vector
table (log 32, log 34). R29, R36, R41, R48 of 10_state.md, R494 of 51_system_coproc.md, R570 and R581 of
60_exceptions.md, for the whole instruction set. The model's choices: reti runs in user mode, adds 8 to SSP and writes
PSR under the user mask (D22, log 32), and writes user mode may not make are silently dropped (D4, D13, log 34). It
rests on choices, the spec's where a D is named, else the model's: halt and slp without the right act as nop (D16, log
31). -/
def Obligations.UserModeIsolation : Prop :=
  ∀ (i : Instr) (s t : State), s.psr.sv = true → s.psr.me = false → exec i s = .next t →
    (t.psr.sv = true ∧ t.psr.he = s.psr.he ∧ t.psr.il = s.psr.il ∧ t.psr.ie = s.psr.ie ∧ t.ttbr = s.ttbr ∧
      (t.ssp = s.ssp ∨ (i = .reti ∧ t.ssp = s.ssp + 8))) ∨
    (t.psr.sv = false ∧ t.psr.ie = false ∧ t.psr.he = s.psr.he ∧ t.ttbr = s.ttbr ∧ t.ssp = s.ssp - 8 ∧
      ∃ n v, n < 256 ∧ t.load .word (vector t n) = .ok v ∧ t.pc = even v) ∨
    t.run = .reset

/-- ME is cleared only by retm and DE only by retd, reset excepted. R36 of 10_state.md: both are read-only flags,
cleared by retm and retd. -/
def Obligations.HandlerModesEndByReturn : Prop :=
  ∀ s t : State, step s = .next t → t.run ≠ .reset →
    (s.psr.me = true → t.psr.me = false → ∃ w, s.fetch = .ok w ∧ decodeHalf w = some .retm) ∧
    (s.psr.de = true → t.psr.de = false → ∃ w, s.fetch = .ok w ∧ decodeHalf w = some .retd)

/-- Completing an instruction: prefixes used up, the pc at the next address, or at the pending branch address after a
slot. R25 of 10_state.md, R394 of 48_branch.md, R521 of 52_ext.md, the last case of R480 of 50_loop_repeat.md. It
rests on choices, the spec's where a D is named, else the model's: the pc modulo 2^32 (D5, log 35), a delayed branch
sampled when it executes (D27, log 15), the prefix record (D20, log 13), how the read windows count (log 22). -/
def Obligations.Completion : Prop :=
  ∀ (s : State) (npc : Word),
    ¬ (s.psr.rm = true ∧ s.pc = even s.lsa) → ¬ (s.psr.lm = true ∧ s.pc = even s.lea) →
    s.complete npc = { retired s with pc := s.delay.getD npc }

/-- The end-of-instruction check of repeat and loop (clearing RM and LM on the last pass is log 16). The step rules of
R475 and R465 of 50_loop_repeat.md in the order of R480 (derived there), and the LCO + 1 executions they give. That RM
and LM are cleared at the end of the last pass is the decision D28 (log 16). -/
def Obligations.RepeatAndLoopCheck : Prop :=
  (∀ (s : State) (npc : Word), s.psr.rm = true → s.pc = even s.lsa →
    s.complete npc =
      if 1 ≤ s.lco.toNat then { retired s with lco := s.lco - 1 }
      else { retired s with psr := { s.psr with rm := false }, pc := s.pc + 2 }) ∧
  (∀ (s : State) (npc : Word), s.psr.lm = true → s.pc = even s.lea → ¬ (s.psr.rm = true ∧ s.pc = even s.lsa) →
    s.complete npc =
      if 1 ≤ s.lco.toNat then { retired s with lco := s.lco - 1, pc := even s.lsa }
      else { retired s with psr := { s.psr with lm := false }, pc := s.pc + 2 }) ∧
  (∀ (s : State) (k : Nat), s.psr.rm = true → s.pc = even s.lsa → k ≤ s.lco.toNat →
    let t := Nat.repeat (fun u => u.complete (u.pc + 2)) k s
    t.psr.rm = true ∧ t.pc = s.pc ∧ t.lco.toNat = s.lco.toNat - k ∧ t.lsa = s.lsa ∧
      (k = s.lco.toNat → (t.complete (t.pc + 2)).psr.rm = false ∧ (t.complete (t.pc + 2)).lco = 0 ∧
        (t.complete (t.pc + 2)).pc = s.pc + 2)) ∧
  (∀ (s : State) (k : Nat), s.psr.lm = true → s.psr.rm = false → k ≤ s.lco.toNat →
    let t := Nat.repeat (fun u => ({ u with pc := even u.lea } : State).complete (u.pc + 2)) k s
    let last := ({ t with pc := even t.lea } : State).complete (t.pc + 2)
    t.psr.lm = true ∧ t.lco.toNat = s.lco.toNat - k ∧ t.lsa = s.lsa ∧ t.lea = s.lea ∧
      (0 < k → t.pc = even s.lsa) ∧
      (k = s.lco.toNat → last.psr.lm = false ∧ last.lco = 0 ∧ last.pc = even s.lea + 2))

/-- Where an instruction may stand: delay slots, the target of a repeat, the end of a loop. R396, R397 of
48_branch.md; R472, R476, R481 a, b of 50_loop_repeat.md. It rests on choices, the spec's where a D is named, else the
model's: the stop in a delay slot (D14, log 15), the stops at LSA of a repeat and at the end of a loop (D23, log 16).
-/
def Obligations.PlacementStops : Prop :=
  ∀ (i : Instr) (s : State),
    let slotBad : Prop := s.delay ≠ none ∧ mayFillSlot i = false
    let repeatBad : Prop := s.psr.rm = true ∧ s.pc = even s.lsa ∧ unrepeatable i = true
    let loopBad : Prop := s.psr.lm = true ∧
      ((s.pc = even s.lea ∧ (notAtLoopEnd i = true ∨ notNearLoopEnd i = true)) ∨
        (s.pc = even s.lea - 2 ∧ notNearLoopEnd i = true))
    (slotBad → exec i s = .fault .prohibitedDelaySlot) ∧
    (¬ slotBad → repeatBad → exec i s = .fault .unrepeatableAtLsa) ∧
    (¬ slotBad → ¬ repeatBad → loopBad → exec i s = .fault .forbiddenAtLoopEnd) ∧
    (¬ slotBad → ¬ repeatBad → ¬ loopBad → s.misplaced i = none)

/-- ext cond skips its target exactly when the condition is true, and is invalid on control transfers. R531 of
52_ext.md. That a skipped target still takes the end-of-range test is derived there, since the manual gives no case.
What completion changes is in the statements Completion and RepeatAndLoopCheck. It rests on choices, the spec's where
a D is named, else the model's: a skipped target counts as executed for the loop end test (D12, log 13). -/
def Obligations.ConditionalExecution : Prop :=
  ∀ (i : Instr) (s : State) (c : Cond), s.misplaced i = none → s.ext.cond = some c →
    let invalid : Bool := isControl i || (branchForm i).isSome || isPrefix i
    (invalid = false → conditionTrue c s.psr = true → exec i s = .next (s.complete (s.pc + 2))) ∧
    (invalid = false → conditionTrue c s.psr = false → s.Free i) ∧
    (invalid = true → s.Free i)

/-- Byte order: what a physical write stores at each byte, and what a physical read gathers. R81 of 20_memory.md for
both byte orders, addresses modulo 2^32 (R80). It rests on choices, the spec's where a D is named, else the model's:
addresses modulo 2^32 (D5, log 35), the byte order as a parameter (D1, log 3), a whole access at once (D7, log 38). -/
def Obligations.MemoryBytes : Prop :=
  (∀ (s : State) (z : Size) (p v q : Word),
    (s.physWrite z p v).byteAt q =
      if (q - p).toNat < z.bytes.toNat then storedByte s.params.bigEndian z v (q - p).toNat else s.byteAt q) ∧
  (∀ (s : State) (z : Size) (p v : Word), SameButMemory (s.physWrite z p v) s) ∧
  (∀ (s : State) (z : Size) (p : Word),
    (s.physRead z p).toNat < 256 ^ z.bytes.toNat ∧
    ∀ k, k < z.bytes.toNat → storedByte s.params.bigEndian z (s.physRead z p) k = s.byteAt (p + BitVec.ofNat 32 k))

/-- Translation: the identity while ME = 1 and for pages without an entry, else the frame of the page or a miss. R93
of 20_memory.md; the table that stands for Translate is the model's (log 5). It rests on choices, the spec's where a D
is named, else the model's: translation as a parameter (D6, log 5). -/
def Obligations.TranslateRule : Prop :=
  ∀ (s : State) (k : AccessKind) (a : Word),
    let names : Translation → Bool := fun e => decide (e.page.toNat = a.toNat / 4096 ∧ e.kind = k ∧ e.user = s.psr.sv)
    (s.psr.me = true → s.translate k a = some a) ∧
    (s.psr.me = false → (∀ e ∈ s.params.translations, names e = false) → s.translate k a = some a) ∧
    (∀ before e after, s.psr.me = false → s.params.translations = before ++ e :: after →
      (∀ b ∈ before, names b = false) → names e = true →
      s.translate k a = e.frame.map fun f => BitVec.ofNat 32 (f.toNat * 4096 + a.toNat % 4096))

/-- The PSR as a word: where each flag stands, and which bits an explicit write changes in each mode. R28 and R29 of
10_state.md; the choices of the model: the rights while ME = 1 (D30 in R592 d of 60_exceptions.md, log 33), and
protected bits silently kept while the rest is written (D4, log 34). -/
def Obligations.PsrWord : Prop :=
  (∀ p : Psr,
    let w := p.toWord
    w.getLsbD 31 = p.he ∧ w.getLsbD 30 = p.rm ∧ w.getLsbD 29 = p.lm ∧ w.getLsbD 28 = p.pm ∧
    w.toNat / 16777216 % 16 = p.rc.toNat ∧ w.getLsbD 22 = p.sw ∧ w.getLsbD 21 = p.oc ∧ w.getLsbD 20 = p.se ∧
    w.getLsbD 17 = p.lc ∧ w.getLsbD 16 = p.hc ∧ w.getLsbD 15 = p.s ∧ w.getLsbD 14 = p.de ∧ w.getLsbD 13 = p.me ∧
    w.getLsbD 12 = p.sv ∧ w.toNat / 256 % 16 = p.il.toNat ∧ w.getLsbD 7 = p.mo ∧ w.getLsbD 6 = p.ds ∧
    w.getLsbD 4 = p.ie ∧ w.getLsbD 3 = p.c ∧ w.getLsbD 2 = p.v ∧ w.getLsbD 1 = p.z ∧ w.getLsbD 0 = p.n ∧
    w &&& 0x008C0020#32 = 0) ∧
  (∀ (s : State) (v : Word),
    (s.writePsr v).psr.toWord = (v &&& writableBits s.psr) ||| (s.psr.toWord &&& ~~~(writableBits s.psr)) ∧
    { s.writePsr v with psr := s.psr } = s)

/-- How pending prefixes change immediates, displacements, increments and register operands. R523 to R528 of
52_ext.md, R163 of 40_data_transfer.md, R333 of 45_shift.md, R258, R259 and R264 of 42_arith.md. A pending register
with pending immediates is ignored (R532). It rests on choices, the spec's where a D is named, else the model's: a
pending register with pending immediates is ignored (D12, log 13). -/
def Obligations.OperandForms : Prop :=
  (∀ (e : Ext) (i : BitVec 6) (j : BitVec 8), e.imm = [] →
    (e.imm6 i).toNat = i.toNat ∧ (e.sign6 i).toInt = i.toInt ∧ (e.sign8 j).toInt = 2 * j.toInt ∧ e.immDisp = 0 ∧
    ∀ z : Size, (e.baseDisp z i).toNat = i.toNat * z.bytes.toNat) ∧
  (∀ (e : Ext) (a : BitVec 13) (i : BitVec 6) (j : BitVec 8), e.imm = [a] →
    (e.imm6 i).toNat = a.toNat * 64 + i.toNat ∧ (e.sign6 i).toInt = a.toInt * 64 + i.toNat ∧
    (e.sign8 j).toInt = a.toInt * 512 + 2 * j.toNat ∧ e.immDisp.toNat = a.toNat ∧
    ∀ z : Size, (e.baseDisp z i).toNat = (a.toNat * 64 + i.toNat) / z.bytes.toNat * z.bytes.toNat) ∧
  (∀ (e : Ext) (a b : BitVec 13) (i : BitVec 6) (j : BitVec 8), e.imm = [a, b] →
    (e.imm6 i).toNat = a.toNat * 524288 + b.toNat * 64 + i.toNat ∧
    (e.sign6 i).toInt = a.toInt * 524288 + b.toNat * 64 + i.toNat ∧
    (e.sign8 j).toNat = a.toNat / 8 * 4194304 + b.toNat * 512 + 2 * j.toNat ∧
    e.immDisp.toNat = a.toNat * 8192 + b.toNat ∧
    ∀ z : Size, (e.baseDisp z i).toNat =
      (a.toNat * 524288 + b.toNat * 64 + i.toNat) / z.bytes.toNat * z.bytes.toNat) ∧
  (∀ (s : State) (z : Size) (rd rs : Reg), s.ext.imm = [] →
    match s.ext.rs with
    | none =>
      s.extDisp = 0 ∧ s.postIncrement z = z.bytes ∧ s.sources rd rs = (s.reg rd, s.reg rs) ∧
      s.sourcesImm rd rs = (s.reg rd, s.reg rs) ∧ s.sourcesReg rd rs = (s.reg rd, s.reg rs) ∧
      s.sourcesDp rd = (s.reg rd, s.dp) ∧ s.shiftSource rd = s.reg rd
    | some r =>
      s.extDisp = s.reg r ∧ s.postIncrement z = s.reg r ∧ s.sources rd rs = (s.reg rs, s.reg r) ∧
      s.sourcesImm rd rs = (s.reg rd, s.reg rs) ∧ s.sourcesReg rd rs = (s.reg rs, s.reg r) ∧
      s.sourcesDp rd = (s.dp, s.reg r) ∧ s.shiftSource rd = s.reg r) ∧
  (∀ (s : State) (z : Size) (rd rs : Reg) (disp : Word) (inc : Int),
    ((∃ a, s.ext.imm = [a] ∧ disp.toNat = a.toNat ∧ inc = a.toInt) ∨
      (∃ a b, s.ext.imm = [a, b] ∧ disp.toNat = a.toNat * 8192 + b.toNat ∧ inc = a.toInt * 8192 + b.toNat)) →
    s.extDisp = disp ∧ (s.postIncrement z).toInt = inc ∧ s.sources rd rs = (s.reg rs, disp) ∧
    s.sourcesImm rd rs = (s.reg rs, disp) ∧ s.sourcesReg rd rs = (s.reg rd, s.reg rs) ∧
    s.sourcesDp rd = (s.dp, disp) ∧ s.shiftSource rd = s.reg rd)

/-- The eighteen prefixes: each adds its part to the record and only advances the pc, or stops on an unlisted series.
R521, R522, R532 and R540 to R544 of 52_ext.md. It rests on choices, the spec's where a D is named, else the model's:
a prefix is an instruction that only changes the record (D20, log 13), the stop on an unlisted series (D12, log 13), a
prefix does not shorten the read windows (log 22). -/
def Obligations.PrefixRecords : Prop :=
  ∀ (s : State) (r : Reg) (n : BitVec 2) (x : BitVec 13),
    let bare : Prop := s.ext.imm = [] ∧ s.ext.rs = none ∧ s.ext.shift = none
    Prefixes (.extImm x) s (s.ext.rs = none ∨ (s.ext.shift ≠ none ∧ s.ext.cond = none))
      { s.ext with imm := if s.ext.imm = [] then [x] else [s.ext.imm.headD 0, x] } ∧
    Prefixes (.extReg r) s bare { s.ext with rs := some r } ∧
    Prefixes (.extRegSra r n) s bare { s.ext with rs := some r, shift := some (.sra, n) } ∧
    Prefixes (.extRegSrl r n) s bare { s.ext with rs := some r, shift := some (.srl, n) } ∧
    Prefixes (.extRegSll r n) s bare { s.ext with rs := some r, shift := some (.sll, n) } ∧
    Prefixes (.extSra n) s bare { s.ext with shift := some (.sra, n) } ∧
    Prefixes (.extSrl n) s bare { s.ext with shift := some (.srl, n) } ∧
    Prefixes (.extSll n) s bare { s.ext with shift := some (.sll, n) } ∧
    Prefixes .extGt s (s.ext.count = 0) { s.ext with cond := some .gt } ∧
    Prefixes .extGe s (s.ext.count = 0) { s.ext with cond := some .ge } ∧
    Prefixes .extLt s (s.ext.count = 0) { s.ext with cond := some .lt } ∧
    Prefixes .extLe s (s.ext.count = 0) { s.ext with cond := some .le } ∧
    Prefixes .extUgt s (s.ext.count = 0) { s.ext with cond := some .ugt } ∧
    Prefixes .extUge s (s.ext.count = 0) { s.ext with cond := some .uge } ∧
    Prefixes .extUlt s (s.ext.count = 0) { s.ext with cond := some .ult } ∧
    Prefixes .extUle s (s.ext.count = 0) { s.ext with cond := some .ule } ∧
    Prefixes .extEq s (s.ext.count = 0) { s.ext with cond := some .eq } ∧
    Prefixes .extNe s (s.ext.count = 0) { s.ext with cond := some .ne }

/-- Register moves with sign or zero extension, and the signed immediate. R170 to R175 of 40_data_transfer.md. -/
def Obligations.RegisterMoves : Prop :=
  ∀ (s : State) (rd rs : Reg) (i : BitVec 6),
    RunsTo (.ldbReg rd rs) s (s.setReg rd (widened .byte true (s.reg rs))) ∧
    RunsTo (.ldubReg rd rs) s (s.setReg rd (widened .byte false (s.reg rs))) ∧
    RunsTo (.ldhReg rd rs) s (s.setReg rd (widened .half true (s.reg rs))) ∧
    RunsTo (.lduhReg rd rs) s (s.setReg rd (widened .half false (s.reg rs))) ∧
    RunsTo (.ldwReg rd rs) s (s.setReg rd (s.reg rs)) ∧
    RunsTo (.ldwImm rd i) s (s.setReg rd (s.ext.sign6 i))

/-- ld.w %rd,%ss reads every special register; the hazards of PSR, ALR and AHR. R176 of 40_data_transfer.md, R26, R37,
R45 to R48 of 10_state.md, R642 and R643 of 70_reset_and_hazards.md. The choices of the model: PC outside a delay slot
reads as its own address plus 2, on which a program may not rely (D19, U7, log 23), and how the windows count
instructions (log 22). It rests on choices, the spec's where a D is named, else the model's: number 12 reads as a free
value (D13, log 9), bit 6 of PSR is free in the DS window and a read in the macclr window stops (D32, log 22), %sp
follows SV while ME = 1 (D30, log 33), IDIR (D17, log 11), DBBR (D24, log 12). -/
def Obligations.ReadSpecialRegister : Prop :=
  ∀ (s : State) (rd : Reg) (n : SReg),
    let hazard : Prop := 0 < s.macWindow ∧ (n = 0 ∨ n = 2 ∨ n = 3)
    (¬ hazard → RunsTo (.ldwSs rd n) s ((specialRead s n).2.setReg rd (specialRead s n).1)) ∧
    (hazard → s.Free (.ldwSs rd n) → exec (.ldwSs rd n) s = .fault .macclrHazard)

/-- ld.w %sd,%rs writes every special register under its fixed bits and access rights, and lifts the NMI mask. R177 of
40_data_transfer.md, R29, R38, R40, R41, R47, R48 of 10_state.md, R584 of 60_exceptions.md, R481 c of
50_loop_repeat.md. The choices of the model: writes to protected bits, IDIR, DBBR, PC and number 12 are silently
dropped (D4, D13, log 34), and ME = 1 gives the supervisor's rights (D30, log 33). It rests on choices, the spec's
where a D is named, else the model's: the stop on LCO, LSA or LEA inside a loop or repeat (D23, log 16). -/
def Obligations.WriteSpecialRegister : Prop :=
  ∀ (s : State) (rs : Reg) (n : SReg),
    let busy : Prop := (s.psr.lm = true ∧ (n = 4 ∨ n = 5 ∨ n = 6)) ∨ (s.psr.rm = true ∧ (n = 4 ∨ n = 5))
    (¬ busy → RunsTo (.ldwSd n rs) s (specialWritten s n (s.reg rs))) ∧
    (busy → s.Free (.ldwSd n rs) → exec (.ldwSd n rs) s = .fault .loopRegisterWrite)

/-- The twenty loads: value, extension and the increment of the base. R161 to R165 and R180 to R199 of
40_data_transfer.md; sizes and extension R82 of 20_memory.md. It rests on choices, the spec's where a D is named, else
the model's: addresses modulo 2^32 (D5, log 35), %sp follows SV while ME = 1 (D30, log 33). -/
def Obligations.LoadsComplete : Prop :=
  (∀ (s : State) (rd rb : Reg) (i : BitVec 6),
      let a := s.reg rb + s.extDisp
      LoadsAt (.ldbInd rd rb) .byte true rd s a ∧
      LoadsAt (.ldubInd rd rb) .byte false rd s a ∧
      (¬ unaligned .half a → LoadsAt (.ldhInd rd rb) .half true rd s a) ∧
      (¬ unaligned .half a → LoadsAt (.lduhInd rd rb) .half false rd s a) ∧
      (¬ unaligned .word a → LoadsAt (.ldwInd rd rb) .word true rd s a) ∧
      LoadsAt (.ldbSp rd i) .byte true rd s (s.sp + s.ext.baseDisp .byte i) ∧
      LoadsAt (.ldubSp rd i) .byte false rd s (s.sp + s.ext.baseDisp .byte i) ∧
      LoadsAt (.ldhSp rd i) .half true rd s (s.sp + s.ext.baseDisp .half i) ∧
      LoadsAt (.lduhSp rd i) .half false rd s (s.sp + s.ext.baseDisp .half i) ∧
      LoadsAt (.ldwSp rd i) .word true rd s (s.sp + s.ext.baseDisp .word i) ∧
      LoadsAt (.ldbDp rd i) .byte true rd s (s.dp + s.ext.baseDisp .byte i) ∧
      LoadsAt (.ldubDp rd i) .byte false rd s (s.dp + s.ext.baseDisp .byte i) ∧
      LoadsAt (.ldhDp rd i) .half true rd s (s.dp + s.ext.baseDisp .half i) ∧
      LoadsAt (.lduhDp rd i) .half false rd s (s.dp + s.ext.baseDisp .half i) ∧
      LoadsAt (.ldwDp rd i) .word true rd s (s.dp + s.ext.baseDisp .word i)) ∧
  (∀ (s : State) (rd rb : Reg),
      LoadsThenAdds (.ldbInc rd rb) .byte true rd rb s ∧
      LoadsThenAdds (.ldubInc rd rb) .byte false rd rb s ∧
      LoadsThenAdds (.ldhInc rd rb) .half true rd rb s ∧
      LoadsThenAdds (.lduhInc rd rb) .half false rd rb s ∧
      LoadsThenAdds (.ldwInc rd rb) .word true rd rb s)

/-- The twelve stores: what they store and where, with every other byte unchanged, and the increment of the base. R161
to R164 and R200 to R211 of 40_data_transfer.md; R81 and R83 of 20_memory.md. It rests on choices, the spec's where a
D is named, else the model's: addresses modulo 2^32 (D5, log 35), the byte order as a parameter (D1, log 3), %sp
follows SV while ME = 1 (D30, log 33), the record of stored bytes (D11, log 4). -/
def Obligations.StoresComplete : Prop :=
  (∀ (s : State) (rb rs : Reg) (i : BitVec 6),
      let a := s.reg rb + s.extDisp
      let u := fun t : State => t.complete (s.pc + 2)
      StoresAt (.stbInd rb rs) .byte s u a (s.reg rs) ∧
      (¬ unaligned .half a → StoresAt (.sthInd rb rs) .half s u a (s.reg rs)) ∧
      (¬ unaligned .word a → StoresAt (.stwInd rb rs) .word s u a (s.reg rs)) ∧
      StoresAt (.stbSp i rs) .byte s u (s.sp + s.ext.baseDisp .byte i) (s.reg rs) ∧
      StoresAt (.sthSp i rs) .half s u (s.sp + s.ext.baseDisp .half i) (s.reg rs) ∧
      StoresAt (.stwSp i rs) .word s u (s.sp + s.ext.baseDisp .word i) (s.reg rs) ∧
      StoresAt (.stbDp i rs) .byte s u (s.dp + s.ext.baseDisp .byte i) (s.reg rs) ∧
      StoresAt (.sthDp i rs) .half s u (s.dp + s.ext.baseDisp .half i) (s.reg rs) ∧
      StoresAt (.stwDp i rs) .word s u (s.dp + s.ext.baseDisp .word i) (s.reg rs)) ∧
  (∀ (s : State) (rb rs : Reg),
      let u := fun (z : Size) (t : State) => (t.setReg rb (s.reg rb + s.postIncrement z)).complete (s.pc + 2)
      StoresAt (.stbInc rb rs) .byte s (u .byte) (s.reg rb) (s.reg rs) ∧
      (¬ unaligned .half (s.reg rb) → StoresAt (.sthInc rb rs) .half s (u .half) (s.reg rb) (s.reg rs)) ∧
      (¬ unaligned .word (s.reg rb) → StoresAt (.stwInc rb rs) .word s (u .word) (s.reg rb) (s.reg rs)))

/-- A misaligned access takes vector 6, an access that misses takes the MMU exception; what was done before stays. R84
and R93 of 20_memory.md, R569, R574, R575 and R590 of 60_exceptions.md, R534 b, d of 52_ext.md, R313 of 44_mac.md,
R380 of 47_pushpop.md. The choices of the model: the free address with seven or more prefixes (D21, log 14), RC after
a miss (log 26), the stop inside a handler (D29, log 19). A mac whose counter a mirror overwrites is left out (R317).
It rests on choices, the spec's where a D is named, else the model's: when an access misses (D6, log 5), RC and PM as
they were after a miss of pushs or pops of PSR or SP (log 42), an undone instruction does not shorten the read windows
(log 22), a miss of the exception entry itself (log 20), the record of stored bytes (D11, log 4), the rights of pops
while ME = 1 (D30, log 33). -/
def Obligations.AccessesNotPerformed : Prop :=
  (∀ (i : Instr) (s : State) (k : AccessKind) (z : Size) (a : Word),
      s.Free i → access s i = some (k, z, a, true) → unaligned z a →
      Aborts i s s true) ∧
  ((∀ (i : Instr) (s : State) (k : AccessKind) (z : Size) (a : Word) (checked : Bool),
      s.Free i → access s i = some (k, z, a, checked) → (checked = true → ¬ unaligned z a) → s.translate k a = none →
      Aborts i s s false) ∧
    (∀ (i : Instr) (s : State) (rb : Reg) (k : BitVec 3),
      i = .bclr rb k ∨ i = .bset rb k ∨ i = .bnot rb k → s.Free i →
      s.translate .read (s.reg rb + s.ext.immDisp) ≠ none → s.translate .write (s.reg rb + s.ext.immDisp) = none →
      Aborts i s s false) ∧
    (∀ s : State, s.Free .reti → s.translate .read (s.ssp + 4) ≠ none → s.translate .read s.ssp = none →
      Aborts .reti s s false) ∧
    (∀ (i : Instr) (s u : State) (rs : Reg) (z1 z2 : Size) (k : Nat) (misaligned : Bool),
      s.Free i → macForm i = some (rs, z1, z2) → CounterKept s rs → k < (s.reg rs).toNat → Undisturbed s k →
      macSteps rs z1 z2 k s = some u → macFailure u rs z1 z2 = some misaligned → Aborts i s (waited u k) misaligned) ∧
    (∀ (i : Instr) (s u : State) (n count k : Nat),
      s.Free i → MayStart i s → sequence s i = (n, count) → k < count → Undisturbed s k → partsDone i n k s = some u →
      let number := partNumber i n k
      ((∃ r, i = .pushn r) → u.translate .write (u.sp - 4) = none → Aborts i s (marked (waited u k) number) false) ∧
      ((∃ r, i = .pushs r) → u.translate .write (u.sp - 4) = none →
        Aborts i s (marked (waited (specialWord u number).2 k) number) false) ∧
      ((∃ r, i = .popn r ∨ i = .pops r) → u.translate .read u.sp = none →
        Aborts i s (marked (waited u k) number) false)) ∧
    (∀ (s : State) (n : SReg),
      let top := if s.psr.pm then s.psr.rc else n
      (s.Free (.pushs n) → top = 0 ∨ top = 1 → (0 < s.macWindow → top = 1) → s.translate .write (s.sp - 4) = none →
        Aborts (.pushs n) s (specialRead s top).2 false) ∧
      (s.Free (.pops n) → n = 0 ∨ n = 1 → s.psr.pm = false → s.translate .read s.sp = none → Aborts (.pops n) s s false)))

/-- add, adc, sub, sbc, cmp with C, V, Z, N of the unshifted exact result; the forms on %sp and %dp change no flag.
R250 to R253 and R255 to R265 of 42_arith.md; the flags R33 to R35 of 10_state.md; R530 of 52_ext.md. It rests on
choices, the spec's where a D is named, else the model's: %sp follows SV while ME = 1 (D30, log 33). -/
def Obligations.AdditionSubtraction : Prop :=
  (∀ (s : State) (rd rs : Reg) (i : BitVec 6),
      let two := s.sources rd rs
      let imms := s.sourcesImm rd rs
      let regs := s.sourcesReg rd rs
      let plain : Option (ShiftOp × BitVec 2) := if s.ext.rs = none then s.ext.shift else none
      RunsTo (.addReg rd rs) s (afterAdd s rd s.ext.shift two.1 two.2 false) ∧
      RunsTo (.addImm rd i) s (afterAdd s rd plain (s.reg rd) (s.ext.imm6 i) false) ∧
      RunsTo (.adc rd rs) s (afterAdd s rd s.ext.shift regs.1 regs.2 s.psr.c) ∧
      RunsTo (.subReg rd rs) s (afterSub s rd s.ext.shift two.1 two.2 false) ∧
      RunsTo (.subImm rd i) s (afterSub s rd plain (s.reg rd) (s.ext.imm6 i) false) ∧
      RunsTo (.sbc rd rs) s (afterSub s rd s.ext.shift regs.1 regs.2 s.psr.c) ∧
      RunsTo (.cmpReg rd rs) s { s with psr := subFlags s.psr imms.1 imms.2 false } ∧
      RunsTo (.cmpImm rd i) s { s with psr := subFlags s.psr (s.reg rd) (s.ext.sign6 i) false }) ∧
  (∀ (s : State) (rd : Reg) (i : BitVec 10),
      let plain : Option (ShiftOp × BitVec 2) := if s.ext.rs = none then s.ext.shift else none
      let sp : Nat := (if s.psr.sv then s.usp else s.ssp).toNat
      RunsTo (.addSp i) s (withSp s (postshifted plain (BitVec.ofNat 32 (sp + 4 * i.toNat)))) ∧
      RunsTo (.subSp i) s (withSp s (postshifted plain (BitVec.ofInt 32 (sp - 4 * i.toNat : Int)))) ∧
      RunsTo (.addDp rd) s
        (s.setReg rd (postshifted s.ext.shift (BitVec.ofNat 32 ((s.sourcesDp rd).1.toNat + (s.sourcesDp rd).2.toNat)))))

/-- The ten jump conditions, and what each says of A and B after cmp A,B. The table of R392 of 48_branch.md; how plain
and delayed branches go on is R393 and R394 (with D27, log 15); the use by ext cond is R531 of 52_ext.md. A plain jump
that is taken makes the stores so far visible to fetches (R104; the record is the model's, log 4). It rests on
choices, the spec's where a D is named, else the model's: what makes a store visible to fetches (D11, log 4). -/
def Obligations.ConditionsAfterCompare : Prop :=
  (∀ (s : State) (c : Cond) (d : Bool) (j : BitVec 8), s.Free (jr c d j) →
    exec (jr c d j) s = .next (branched s d (conditionTrue c s.psr) (s.pc + s.ext.sign8 j))) ∧
  (∀ (s t : State) (rd rs : Reg) (c : Cond), s.Free (.cmpReg rd rs) → s.ext.imm = [] →
    exec (.cmpReg rd rs) s = .next t →
    (conditionTrue c t.psr = true ↔ comparison c (s.reg rd) (s.reg rs)) ∧
    (∀ i u, t.misplaced i = none → isControl i = false → branchForm i = none → isPrefix i = false →
      u = ({ t with ext := { t.ext with cond := some c } } : State) →
      (u.skips i = true ↔ comparison c (s.reg rd) (s.reg rs))))

/-- and, or, xor, not: the bitwise result, N and Z of it, V cleared only with OC = 1, C kept. R230 to R241 of
41_logic.md. -/
def Obligations.LogicOperations : Prop :=
  ∀ (s : State) (rd rs : Reg) (i : BitVec 6),
    let two := s.sources rd rs
    RunsTo (.andReg rd rs) s (afterLogic s rd (two.1 &&& two.2)) ∧
    RunsTo (.orReg rd rs) s (afterLogic s rd (two.1 ||| two.2)) ∧
    RunsTo (.xorReg rd rs) s (afterLogic s rd (two.1 ^^^ two.2)) ∧
    RunsTo (.notReg rd rs) s (afterLogic s rd (0xFFFFFFFF#32 ^^^ s.reg rs)) ∧
    RunsTo (.andImm rd i) s (afterLogic s rd (s.reg rd &&& s.ext.sign6 i)) ∧
    RunsTo (.orImm rd i) s (afterLogic s rd (s.reg rd ||| s.ext.sign6 i)) ∧
    RunsTo (.xorImm rd i) s (afterLogic s rd (s.reg rd ^^^ s.ext.sign6 i)) ∧
    RunsTo (.notImm rd i) s (afterLogic s rd (0xFFFFFFFF#32 ^^^ s.ext.sign6 i))

/-- The eighteen shift and rotate codes: result, SOR, Z and N, and C and V when SE = 1. R330 to R347 of 45_shift.md:
each result is the half of one 64-bit shift, SOR the other half. The choice of the model (D25, the spec's reading of
lost figures, log 30): count 0 gives C = 0, V = bit 31 of the result and SOR = 0, and SOR is filled with zeros. -/
def Obligations.ShiftsAndRotates : Prop :=
  ∀ (s : State) (rd rs : Reg) (n : BitVec 5),
    let x := s.shiftSource rd
    let count := (s.reg rs).toNat % 32
    RunsTo (.srlReg rd rs) s (afterShift s .srl rd x count) ∧
    RunsTo (.sllReg rd rs) s (afterShift s .sll rd x count) ∧
    RunsTo (.sraReg rd rs) s (afterShift s .sra rd x count) ∧
    RunsTo (.slaReg rd rs) s (afterShift s .sla rd x count) ∧
    RunsTo (.rrReg rd rs) s (afterShift s .rr rd x count) ∧
    RunsTo (.rlReg rd rs) s (afterShift s .rl rd x count) ∧
    RunsTo (.srlLow rd n) s (afterShift s .srl rd x n.toNat) ∧
    RunsTo (.sllLow rd n) s (afterShift s .sll rd x n.toNat) ∧
    RunsTo (.sraLow rd n) s (afterShift s .sra rd x n.toNat) ∧
    RunsTo (.slaLow rd n) s (afterShift s .sla rd x n.toNat) ∧
    RunsTo (.rrLow rd n) s (afterShift s .rr rd x n.toNat) ∧
    RunsTo (.rlLow rd n) s (afterShift s .rl rd x n.toNat) ∧
    RunsTo (.srlHigh rd n) s (afterShift s .srl rd x n.toNat) ∧
    RunsTo (.sllHigh rd n) s (afterShift s .sll rd x n.toNat) ∧
    RunsTo (.sraHigh rd n) s (afterShift s .sra rd x n.toNat) ∧
    RunsTo (.slaHigh rd n) s (afterShift s .sla rd x n.toNat) ∧
    RunsTo (.rrHigh rd n) s (afterShift s .rr rd x n.toNat) ∧
    RunsTo (.rlHigh rd n) s (afterShift s .rl rd x n.toNat)

/-- btst, bclr, bset, bnot on one bit of a byte of memory. R361, R362, R364 to R367 of 46_bitop.md. It rests on
choices, the spec's where a D is named, else the model's: nothing comes between the read and the write (D10, log 38),
the record of stored bytes (D11, log 4). -/
def Obligations.BitOperations : Prop :=
  ∀ (s : State) (rb : Reg) (k : BitVec 3) (p : Word),
    let a := s.reg rb + s.ext.immDisp
    let b := s.physRead .byte p
    let bit := 1#32 <<< k.toNat
    let u := fun t : State => t.complete (s.pc + 2)
    s.translate .read a = some p →
    RunsTo (.btst rb k) s { s with psr := { s.psr with z := decide (b &&& bit = 0) } } ∧
    StoresAt (.bclr rb k) .byte s u a (b &&& (0xFFFFFFFF#32 ^^^ bit)) ∧
    StoresAt (.bset rb k) .byte s u a (b ||| bit) ∧
    StoresAt (.bnot rb k) .byte s u a (b ^^^ bit)

/-- The five multiplications write the exact product to ALR, or to AHR and ALR, and mirror it to R4 and R5. R282 to
R286 of 43_muldiv.md; the mirrors R21 of 10_state.md. -/
def Obligations.Multiplication : Prop :=
  ∀ (s : State) (rd rs : Reg),
    RunsTo (.mltH rd rs) s (withAlr s (BitVec.ofInt 32 (lowHalf (s.reg rd) * lowHalf (s.reg rs)))) ∧
    RunsTo (.mltuH rd rs) s
      (withAlr s (BitVec.ofNat 32 ((s.reg rd).toNat % 65536 * ((s.reg rs).toNat % 65536)))) ∧
    RunsTo (.mltHw rd rs) s (withAcc s ((s.reg rd).toInt * lowHalf (s.reg rs))) ∧
    RunsTo (.mltW rd rs) s (withAcc s ((s.reg rd).toInt * (s.reg rs).toInt)) ∧
    RunsTo (.mltuW rd rs) s (withAcc s ((s.reg rd).toNat * (s.reg rs).toNat : Int))

/-- div0s, div0u, div1, div2s, div3s. R287 to R291 of 43_muldiv.md; R21 of 10_state.md; R642 of
70_reset_and_hazards.md. For HC = 1 and rs = R5 the divisor of div0s and div0u is the old R5, the model's choice (log
41). It rests on choices, the spec's where a D is named, else the model's: the DS window (D32) and how it counts (log
22). -/
def Obligations.DivisionSteps : Prop :=
  ∀ (s : State) (rs : Reg),
    let d := s.reg rs
    let negative := decide (s.alr.toInt < 0)
    let step1 := divisionBy s.psr.ds s.psr.n s.ahr s.alr d
    let rest := if s.psr.n then s.ahr - d else s.ahr + d
    (d ≠ 0 →
      RunsTo (.div0s rs) s
        { withAhr s (if negative then 0xFFFFFFFF#32 else 0#32) with
          psr := { s.psr with ds := negative, n := decide (d.toInt < 0) }
          dsWindow := 3 } ∧
      RunsTo (.div0u rs) s
        { withAhr s 0 with
          psr := { s.psr with ds := false, n := false }
          dsWindow := 3 }) ∧
    RunsTo (.div1 rs) s (withAlr (withAhr s step1.1) step1.2) ∧
    RunsTo (.div2s rs) s
      (if s.psr.ds = true ∧ rest = 0 then withAlr (withAhr s 0) (s.alr + 1) else s) ∧
    RunsTo .div3s s (if s.psr.ds = s.psr.n then s else withAlr s (BitVec.ofInt 32 (-s.alr.toInt)))

/-- div.w and divu.w: quotient rounded toward zero to ALR, remainder with the dividend's sign to AHR. R292 and R293 of
43_muldiv.md; -2^31 divided by -1 gives the quotient modulo 2^32 (log 29). For LC = 1 and rs = R4 the divisor of
divu.w is the old R4, the model's choice (log 41). -/
def Obligations.WholeDivision : Prop :=
  ∀ (s : State) (rs : Reg),
    let d := s.reg rs
    d ≠ 0 →
    (∀ q r : Int, s.alr.toInt = q * d.toInt + r → r.natAbs < d.toInt.natAbs → (0 ≤ r * s.alr.toInt) →
      RunsTo (.divW rs) s
        (withAhr (withAlr { s with psr := { s.psr with ds := decide (s.alr.toInt < 0), n := decide (d.toInt < 0) } }
          (BitVec.ofInt 32 q)) (BitVec.ofInt 32 r))) ∧
    (∀ q r : Nat, s.alr.toNat = q * d.toNat + r → r < d.toNat →
      RunsTo (.divuW rs) s
        (withAhr (withAlr { s with psr := { s.psr with ds := false, n := false } } (BitVec.ofNat 32 q))
          (BitVec.ofNat 32 r)))

/-- A zero divisor takes vector 4 after the instruction, saving the address of the next one. R294 of 43_muldiv.md,
R573 and R569 of 60_exceptions.md. That ALR and AHR are free is the spec's "any value" (log 29). For HC = 1 and rs =
R5 the zero test of div0s and div0u is of the old R5, the model's choice (log 41). It rests on choices, the spec's
where a D is named, else the model's: the stop while ME = 1 or DE = 1 (D29, log 19), no repeat or loop check is made
at LSA or LEA, so the address saved is pc + 2 there too (log 21, DEDUCED), how the read windows count (log 22), a miss
of the entry itself (log 20), the record of stored bytes (D11, log 4). -/
def Obligations.ZeroDivisionTraps : Prop :=
  ∀ (i : Instr) (s : State) (rs : Reg),
    let finished : State := (match i with
      | .div0s _ =>
        { withAhr s (if s.alr.toInt < 0 then 0xFFFFFFFF#32 else 0#32) with
          psr := { s.psr with ds := decide (s.alr.toInt < 0), n := false }
          dsWindow := 2
          macWindow := s.macWindow - 1 }
      | .div0u _ =>
        { withAhr s 0 with
          psr := { s.psr with ds := false, n := false }
          dsWindow := 2
          macWindow := s.macWindow - 1 }
      | i =>
        { withAhr (withAlr s (Config.freeWord s.free)) (Config.freeWord (s.free + 1)) with
          psr := { s.psr with ds := (i == .divW rs) && decide (s.alr.toInt < 0), n := false }
          free := s.free + 2
          dsWindow := s.dsWindow - 1
          macWindow := s.macWindow - 1 })
    i = .div0s rs ∨ i = .div0u rs ∨ i = .divW rs ∨ i = .divuW rs → s.Free i → s.reg rs = 0 →
    (s.psr.me = false → s.psr.de = false → ∀ p1 p2 p3, EntryMaps s 4 p1 p2 p3 →
      ∃ p t, RestartsAt finished p t ∧ exec i s = .next (entered t none false (s.pc + 2) p1 p2 p3)) ∧
    ((s.psr.me = true ∨ s.psr.de = true) → exec i s = .fault (.exceptionInHandler .zeroDivision))

/-- div0u and thirty-two div1 divide: ALR holds the quotient and AHR the remainder. R288 and R289 of 43_muldiv.md,
composed as the manual's division sequence. -/
def Obligations.UnsignedStepDivision : Prop :=
  ∀ (s : State) (rs : Reg), s.ext = Ext.empty → s.delay = none → s.psr.rm = false → s.psr.lm = false →
    (s.psr.lc = true → rs ≠ 4) → (s.psr.hc = true → rs ≠ 5) → s.reg rs ≠ 0 →
    ∃ t, execAll (.div0u rs :: List.replicate 32 (.div1 rs)) s = some t ∧
      t.alr.toNat = s.alr.toNat / (s.reg rs).toNat ∧ t.ahr.toNat = s.alr.toNat % (s.reg rs).toNat

/-- mac1.h, mac1.hw, mac1.w add one product to the accumulator; macclr clears it. R310, R318 to R321 of 44_mac.md;
R643 of 70_reset_and_hazards.md. The low 64 bits after an overflow are the model's choice (R310 derives them, U5, log
28). It rests on choices, the spec's where a D is named, else the model's: the macclr window (D32) and how it counts
(log 22). -/
def Obligations.SingleAccumulation : Prop :=
  ∀ (s : State) (rd rs : Reg),
    RunsTo (.mac1H rd rs) s (accumulate s (lowHalf (s.reg rd)) (lowHalf (s.reg rs))) ∧
    RunsTo (.mac1Hw rd rs) s (accumulate s (s.reg rd).toInt (lowHalf (s.reg rs))) ∧
    RunsTo (.mac1W rd rs) s (accumulate s (s.reg rd).toInt (s.reg rs).toInt) ∧
    RunsTo .macclr s { withAlr (withAhr s 0) 0 with psr := { s.psr with mo := false }, macWindow := 3 }

/-- mac, mac.hw, mac.w: as many passes as the counter says, and nothing for a counter of 0. R310, R312 to R317 of
44_mac.md. The choices of the model: passes go on with the low 64 bits of an overflowed sum (R310 derives them, U5,
log 28); a mirrored pointer is a free value (R317, U27, log 27). A mirrored counter that is not 0 is left out (R317).
It rests on choices, the spec's where a D is named, else the model's: inputs examined between two passes (D9, log 6,
log 26). -/
def Obligations.RepeatedAccumulation : Prop :=
  ∀ (i : Instr) (s u : State) (rs : Reg) (z1 z2 : Size), macForm i = some (rs, z1, z2) →
    s.reg rs = 0 ∨ CounterKept s rs → Undisturbed s ((s.reg rs).toNat - 1) →
    macSteps rs z1 z2 (s.reg rs).toNat s = some u →
    u.mem = s.mem ∧ RunsTo i s (waited u ((s.reg rs).toNat - 1))

/-- push stores a register below the stack pointer of the mode; pop loads one from it. R370, R373, R374 of
47_pushpop.md; R37 of 10_state.md. It rests on choices, the spec's where a D is named, else the model's: addresses
modulo 2^32 (D5, log 35), %sp follows SV while ME = 1 (D30, log 33), the record of stored bytes (D11, log 4). -/
def Obligations.PushAndPop : Prop :=
  ∀ (s : State) (r : Reg),
    StoresAt (.push r) .word s (fun t => (withSp t (s.sp - 4)).complete (s.pc + 2)) (s.sp - 4) (s.reg r) ∧
    (∀ p, s.translate .read s.sp = some p →
      RunsTo (.pop r) s ((withSp s (s.sp + 4)).setReg r (s.physRead .word p)))

/-- pushn stores rs down to R0 and popn loads R0 up to rd, or from RC when resumed. R375, R376, R380 of 47_pushpop.md;
order R89 of 20_memory.md. RC above rd comes only from a forged PSR (log 25). It rests on choices, the spec's where a
D is named, else the model's: inputs examined between two words (D9, log 6, log 26), %sp follows SV while ME = 1 (D30,
log 33), the record of stored bytes (D11, log 4). -/
def Obligations.PushAndPopRegisters : Prop :=
  ∀ (s u : State) (r : Reg),
    (∀ n count, sequence s (.pushn r) = (n, count) → Undisturbed s (count - 1) →
      partsDone (.pushn r) n count s = some u →
      RunsTo (.pushn r) s ((waited u (count - 1)).setPm false) ∧
      (s.sp.toNat % 4 = 0 → ∀ q : Word,
        (∀ k p, k < count → s.translate .write (s.sp - 4 * BitVec.ofNat 32 (k + 1)) = some p → 4 ≤ (q - p).toNat) →
        u.byteAt q = s.byteAt q)) ∧
    (∀ n count, sequence s (.popn r) = (n, count) → 0 < count → Undisturbed s (count - 1) →
      partsDone (.popn r) n count s = some u →
      u.mem = s.mem ∧ RunsTo (.popn r) s ((waited u (count - 1)).setPm false))

/-- pushs and pops: PSR or SP singly, else ss down to ALR and ALR up to sd. R377 to R380 of 47_pushpop.md, R48 of
10_state.md, R642, R643 of 70_reset_and_hazards.md, R481 c of 50_loop_repeat.md; the model's choices are log 24 (free
values for numbers 10 to 15) and log 25 (a forged RC). Left out: pops with PM = 1 and RC 0, 1 or above sd, which only
a forged PSR gives (log 25). It rests on choices, the spec's where a D is named, else the model's: SP and PSR pushed
as they were before, and PM 0 at the end of pops (D26, log 24), PSR bits the mode may not write keep their value (D4,
log 34), the rights for PSR and TTBR while ME = 1 are the supervisor's and %sp follows SV (D30, log 33), the stop of
pushs in the macclr window and the free bit 6 in the DS window (D32, log 22), the stop of pops inside a loop or repeat
(D23, log 16), the record of stored bytes (D11, log 4). -/
def Obligations.PushAndPopSpecials : Prop :=
  ∀ (s u : State) (n : SReg),
    let top := if s.psr.pm then s.psr.rc else n
    (top = 0 ∨ top = 1 → (0 < s.macWindow → top = 1) →
      push1 (specialRead s top).1 (specialRead s top).2 = some u → RunsTo (.pushs n) s (u.setPm false)) ∧
    (∀ first count, sequence s (.pushs n) = (first, count) → 0 < count → MayStart (.pushs n) s →
      Undisturbed s (count - 1) → partsDone (.pushs n) first count s = some u →
      RunsTo (.pushs n) s ((waited u (count - 1)).setPm false)) ∧
    (0 < s.macWindow → top ≠ 1 → s.Free (.pushs n) → exec (.pushs n) s = .fault .macclrHazard) ∧
    (n = 0 → s.psr.pm = false → pop1 s (fun v t => some (t.writePsr v)) = some u →
      u.mem = s.mem ∧ RunsTo (.pops n) s (u.setPm false)) ∧
    (n = 1 → s.psr.pm = false → pop1 s (fun _ t => some t) = some u →
      u.mem = s.mem ∧ RunsTo (.pops n) s (u.setPm false)) ∧
    (∀ first count, sequence s (.pops n) = (first, count) → 0 < count → MayStart (.pops n) s →
      Undisturbed s (count - 1) → partsDone (.pops n) first count s = some u →
      u.mem = s.mem ∧ RunsTo (.pops n) s ((waited u (count - 1)).setPm false)) ∧
    (4 ≤ n.toNat → s.psr.lm = true ∨ s.psr.rm = true → s.Free (.pops n) →
      exec (.pops n) s = .fault .loopRegisterWrite)

/-- An event between two parts of pushn, popn, pushs, pops or two passes of mac saves what resumes the instruction.
R375 to R380 of 47_pushpop.md, R313 of 44_mac.md, R568, R570, R586, R595 of 60_exceptions.md, R534 a of 52_ext.md.
That the core looks at its inputs between all parts is the model's reading (log 26); that a debug break needs an empty
prefix record is D31 (log 37). It rests on choices, the spec's where a D is named, else the model's: inputs examined
between two parts (D9, log 6), prefixes pending hold everything but reset off (D21, log 26), SP and PSR as pushed
(D26, log 24), the debug base (D24, log 12), the record of stored bytes (D11, log 4), the mode in which each access of
a trap entry is translated (log 20), the rights of pops while ME = 1 (D30, log 33). -/
def Obligations.InterruptedSequenceResumes : Prop :=
  (∀ (i : Instr) (s u t : State) (n count k : Nat) (input : HostInput) (rest : List HostInput),
    s.Free i → MayStart i s → sequence s i = (n, count) → s.ext.count = 0 → s.psr.me = false → s.psr.de = false →
    k + 1 < count → Undisturbed s k → s.inputs.drop k = input :: rest → input.reset = none →
    partsDone i n (k + 1) s = some u →
    Takes input (marked { u with inputs := rest } (partNumber i n (k + 1))) s.pc t → exec i s = .next t) ∧
  (∀ (i : Instr) (s u v : State) (n count k : Nat),
    s.Free i → MayStart i s → sequence s i = (n, count) → s.inputs = [] → k < count →
    partsDone i n k s = some u → partsDone i n count s = some v →
    exec i (marked u (partNumber i n k)) =
      .next (((marked v (partNumber i n k)).setPm false).complete (s.pc + 2))) ∧
  (∀ (i : Instr) (s u t : State) (rs : Reg) (z1 z2 : Size) (k : Nat) (input : HostInput) (rest : List HostInput),
    s.Free i → macForm i = some (rs, z1, z2) → CounterKept s rs → s.ext.count = 0 → s.psr.me = false →
    s.psr.de = false → k + 1 < (s.reg rs).toNat → Undisturbed s k → s.inputs.drop k = input :: rest →
    input.reset = none → macSteps rs z1 z2 (k + 1) s = some u →
    Takes input { u with inputs := rest } s.pc t → exec i s = .next t) ∧
  (∀ (i : Instr) (s u : State) (rs : Reg) (z1 z2 : Size) (k : Nat),
    s.Free i → macForm i = some (rs, z1, z2) → CounterKept s rs → s.inputs = [] → k < (s.reg rs).toNat →
    macSteps rs z1 z2 k s = some u → exec i u = exec i s)

/-- jp, jpr, call and ret, plain and delayed. R391, R393 to R395, R398, R410 to R415 of 48_branch.md, R370 of
47_pushpop.md. That a delayed branch samples everything when it executes, and that call.d pushes at the call, is the
decision D27 (log 15); a plain branch makes the stores so far visible to fetches (R104 of 20_memory.md; the record is
the model's, log 4). It rests on choices, the spec's where a D is named, else the model's: what makes a store visible
to fetches (D11, log 4), %sp follows SV while ME = 1 (D30, log 33). -/
def Obligations.JumpsCallsReturn : Prop :=
  (∀ (s : State) (d : Bool) (j : BitVec 8) (rb : Reg),
      (s.Free (.jpRel d j) → exec (.jpRel d j) s = .next (branched s d true (s.pc + s.ext.sign8 j))) ∧
      (s.Free (.jpReg d rb) → exec (.jpReg d rb) s = .next (branched s d true (even (s.reg rb)))) ∧
      (s.Free (.jpr d rb) → exec (.jpr d rb) s = .next (branched s d true (s.pc + even (s.reg rb))))) ∧
  (∀ (s : State) (d : Bool) (j : BitVec 8) (rb : Reg),
      let back := if d then s.pc + 4 else s.pc + 2
      let u := fun (target : Word) (t : State) => branched (withSp t (s.sp - 4)) d true target
      StoresAt (.callRel d j) .word s (u (s.pc + s.ext.sign8 j)) (s.sp - 4) back ∧
      StoresAt (.callReg d rb) .word s (u (even (s.reg rb))) (s.sp - 4) back ∧
      (∀ p, s.Free (.ret d) → s.translate .read s.sp = some p →
        exec (.ret d) s = .next (branched (withSp s (s.sp + 4)) d true (even (s.physRead .word p)))))

/-- scan0 and scan1: the first position of the bit from the MSB, and the four flags. R441 to R443 of 49_misc.md. -/
def Obligations.ScanPositions : Prop :=
  ∀ (s : State) (rd rs : Reg) (t : Bool),
    let width := if s.psr.sw then 32 else 8
    let n := scanPosition t (s.reg rs) width
    RunsTo (if t then .scan1 rd rs else .scan0 rd rs) s
      { s.setReg rd (BitVec.ofNat 32 n) with
        psr := { s.psr with c := decide (n = width), v := false, z := decide (n = 0), n := false } }

/-- swap, swaph and mirror move every bit to its place, and twice is the identity. R444, R445, R446 of 49_misc.md. -/
def Obligations.SwapAndMirror : Prop :=
  ∀ (s : State) (rd rs : Reg),
    decodeHalf (0b10010010#8 ++ rs ++ rd) = some (.swap rd rs) ∧
    decodeHalf (0b10011010#8 ++ rs ++ rd) = some (.swaph rd rs) ∧
    decodeHalf (0b10010110#8 ++ rs ++ rd) = some (.mirror rd rs) ∧
    ∃ swap swaph mirror : Word → Word,
      RunsTo (.swap rd rs) s (s.setReg rd (swap (s.reg rs))) ∧
      RunsTo (.swaph rd rs) s (s.setReg rd (swaph (s.reg rs))) ∧
      RunsTo (.mirror rd rs) s (s.setReg rd (mirror (s.reg rs))) ∧
      (∀ (x : Word) (k j : Nat), k < 4 → j < 8 →
        (swap x).getLsbD (8 * k + j) = x.getLsbD (8 * (3 - k) + j) ∧
        (swaph x).getLsbD (8 * k + j) = x.getLsbD (8 * (if k % 2 = 0 then k + 1 else k - 1) + j) ∧
        (mirror x).getLsbD (8 * k + j) = x.getLsbD (8 * k + (7 - j))) ∧
      (∀ x, swap (swap x) = x ∧ swaph (swaph x) = x ∧ mirror (mirror x) = x ∧
        mirror (swap x) = swap (mirror x) ∧ mirror (swaph x) = swaph (mirror x)) ∧
      (∀ (x : Word) (k : Nat), k < 32 → (swap (mirror x)).getLsbD k = x.getLsbD (31 - k))

/-- The six saturations write the value or its limit and set S only at a limit; nop only advances. R448 to R451 of
49_misc.md; the further clauses are R452, R453 and R455 there, the maximum of sat.w as 90_conflicts.md C3 has it. -/
def Obligations.Saturation : Prop :=
  ∀ (s : State) (rd rs : Reg),
    let v := s.reg rs
    let limit := fun l : Int => ({ s.setReg rd (BitVec.ofInt 32 l) with psr := { s.psr with s := true } } : State)
    let signed := fun lo hi : Int =>
      if v.toInt < lo then limit lo else if hi < v.toInt then limit hi else s.setReg rd v
    decodeHalf (0b10011110#8 ++ rs ++ rd) = some (.satB rd rs) ∧
    decodeHalf (0b10011111#8 ++ rs ++ rd) = some (.satUb rd rs) ∧
    decodeHalf (0b10110110#8 ++ rs ++ rd) = some (.satH rd rs) ∧
    decodeHalf (0b10110111#8 ++ rs ++ rd) = some (.satUh rd rs) ∧
    decodeHalf (0b10111101#8 ++ rs ++ rd) = some (.satW rd rs) ∧
    decodeHalf (0b10111110#8 ++ rs ++ rd) = some (.satUw rd rs) ∧
    RunsTo (.satB rd rs) s (signed (-128) 127) ∧
    RunsTo (.satH rd rs) s (signed (-32768) 32767) ∧
    RunsTo (.satUb rd rs) s (if 255 < v.toNat then limit 255 else s.setReg rd v) ∧
    RunsTo (.satUh rd rs) s (if 65535 < v.toNat then limit 65535 else s.setReg rd v) ∧
    RunsTo (.satW rd rs) s
      (if s.psr.v then limit (if s.psr.n then 2147483647 else -2147483648) else s.setReg rd v) ∧
    RunsTo (.satUw rd rs) s (if s.psr.c then limit 4294967295 else s.setReg rd v) ∧
    RunsTo .nop s s

/-- loop and repeat load LSA, LEA, LCO and set LM or RM; a loop over one instruction stops. R461 to R463, R467, R473,
R474, R481 d of 50_loop_repeat.md. It rests on choices, the spec's where a D is named, else the model's: the stop of a
loop over one instruction (R481 d, D23, log 16). -/
def Obligations.LoopAndRepeatBegin : Prop :=
  ∀ (s : State) (rc ra : Reg) (n m : BitVec 4),
    let first := s.pc + 2
    let loops := fun (i : Instr) (last count : Word) =>
      (even last ≠ first →
        RunsTo i s { s with lsa := first, lea := last, lco := count, psr := { s.psr with lm := true } }) ∧
      (even last = first → s.Free i → exec i s = .fault .singleInstructionLoop)
    loops (.loopReg rc ra) (s.reg ra) (s.reg rc) ∧
    loops (.loopRegImm rc n) (first + BitVec.ofNat 32 (2 * n.toNat)) (s.reg rc) ∧
    loops (.loopImm m n) (first + BitVec.ofNat 32 (2 * n.toNat)) (BitVec.ofNat 32 m.toNat) ∧
    RunsTo (.repeatReg rc) s { s with lsa := first, lco := s.reg rc, psr := { s.psr with rm := true } } ∧
    RunsTo (.repeatImm n) s
      { s with lsa := first, lco := BitVec.ofNat 32 n.toNat, psr := { s.psr with rm := true } }

/-- halt and slp, and what wakes the core. R491 to R494 of 51_system_coproc.md, R600 of 60_exceptions.md. The choices
of the model (D16, PRESUMED, log 31): halt and slp act as nop in user mode with HE = 0, ME = 1 gives no right to halt,
a masked request does not wake the core. It rests on choices, the spec's where a D is named, else the model's: inputs
examined at boundaries (D9, log 6), the record of stored bytes (D11, log 4), the mode in which each access of a trap
entry is translated (log 20). -/
def Obligations.PowerDownAndWake : Prop :=
  ((∀ (s : State) (i : Instr) (mode : RunState), (i = .halt ∧ mode = .halt) ∨ (i = .slp ∧ mode = .sleep) → s.Free i →
      (s.psr.sv = false ∨ s.psr.he = true → exec i s = .next { s.complete (s.pc + 2) with run := mode }) ∧
      (s.psr.sv = true → s.psr.he = false → exec i s = .next (s.complete (s.pc + 2)))) ∧
    (∀ s : State, s.run = .halt ∨ s.run = .sleep → s.inputs = [] → step s = .next s)) ∧
  (∀ (s : State) (input : HostInput) (rest : List HostInput),
      s.run = .halt ∨ s.run = .sleep → s.inputs = input :: rest → input.reset = none →
      let t : State := { s with inputs := rest }
      let unlocked : Prop := s.psr.me = false ∧ s.psr.de = false
      let nmi : Prop := input.nmi = true ∧ s.nmiMasked = false ∧ s.nmiInService = false
      let accepted : Request → Prop := fun r => input.request = some r ∧ s.psr.ie = true ∧ s.psr.il.toNat < r.level.toNat
      (unlocked → nmi → ∀ p1 p2 p3, EntryMaps t 7 p1 p2 p3 → step s = .next (entered t none true s.pc p1 p2 p3)) ∧
      (unlocked → ¬ nmi → ∀ r, accepted r → ∀ p1 p2 p3, EntryMaps t (16 + r.source.val) p1 p2 p3 →
        step s = .next (entered t (some r.level) false s.pc p1 p2 p3)) ∧
      (¬ unlocked ∨ (¬ nmi ∧ ∀ r, ¬ accepted r) → step s = .next t))

/-- psrset and psrclr change exactly the named PSR bit, and only if the mode may write it. R495 to R497 of
51_system_coproc.md with R29 of 10_state.md. The choices of the model: protected and unused bits are silently kept
(D4, log 34), and ME = 1 gives the supervisor's rights (D30, log 33). -/
def Obligations.PsrBitOperations : Prop :=
  ∀ (s : State) (n : BitVec 5) (on : Bool),
    ∃ u, RunsTo (if on then .psrset n else .psrclr n) s u ∧ { u with psr := s.psr } = s ∧
      ∀ k, k < 32 → u.psr.toWord.getLsbD k =
        if k = n.toNat ∧ (writableBits s.psr).getLsbD k = true then on else s.psr.toWord.getLsbD k

/-- The coprocessor instructions move one word, one command or four flags; all but ld.cf go into the history. R500 to
R504 of 51_system_coproc.md; the history is the model's form of the coprocessor's state (log 10). It rests on choices,
the spec's where a D is named, else the model's: the coprocessor as a parameter (D15, log 10). -/
def Obligations.Coprocessor : Prop :=
  ∀ (s : State) (r : Reg) (n : BitVec 4) (c : BitVec 6),
    let f := (Config.copFlags s.cop).toNat
    RunsTo (.ldcRead r n) s { s.setReg r (Config.copRead s.cop n) with cop := .read n :: s.cop } ∧
    RunsTo (.ldcWrite n r) s { s with cop := .write n (s.reg r) :: s.cop } ∧
    RunsTo (.doC c) s { s with cop := .exec c :: s.cop } ∧
    RunsTo .ldCf s { s with
      psr := { s.psr with
        c := decide (f / 8 % 2 = 1)
        v := decide (f / 4 % 2 = 1)
        z := decide (f / 2 % 2 = 1)
        n := decide (f % 2 = 1) } }

/-- Trap entry: PC then PSR on the supervisor stack, mode flags cleared, the pc from the vector table. R563, R570,
R585 of 60_exceptions.md. It rests on choices, the spec's where a D is named, else the model's: the mode in which each
access of the entry is translated (log 20), the record of stored bytes (D11, log 4). -/
def Obligations.TrapEntry : Prop :=
  ∀ (s : State) (n : BitVec 8) (level : Option (BitVec 4)) (nmi : Bool) (ret restart p1 p2 p3 : Word),
    s.vectorAddress n = vector s n.toNat ∧
    (vector s n.toNat).extractLsb' 10 22 = s.ttbr.extractLsb' 10 22 ∧
    (vector s n.toNat).extractLsb' 2 8 = n ∧ (vector s n.toNat).extractLsb' 0 2 = 0 ∧
    (EntryMaps s n.toNat p1 p2 p3 →
      s.trap n level nmi ret restart = .next (entered s level nmi ret p1 p2 p3) ∧
      ∀ q : Word, 4 ≤ (q - p1).toNat → 4 ≤ (q - p2).toNat →
        (entered s level nmi ret p1 p2 p3).byteAt q = s.byteAt q)

/-- int imm2 enters vector 12 + imm2 with the next address saved, in either mode. R578 and R569 of 60_exceptions.md;
the windows R642 and R643 of 70_reset_and_hazards.md. The stop inside a handler is D29 (log 19). It rests on choices,
the spec's where a D is named, else the model's: the read windows (D32) and that int counts in them (log 22), the
record of stored bytes (D11, log 4), the mode in which each access of a trap entry is translated (log 20). -/
def Obligations.SoftwareException : Prop :=
  ∀ (s : State) (n : BitVec 2), s.Free (.int n) →
    (s.psr.me = false → s.psr.de = false → ∀ p1 p2 p3, EntryMaps s (12 + n.toNat) p1 p2 p3 →
      ∃ p t, RestartsAt s p t ∧ exec (.int n) s = .next (entered (retired t) none false (s.pc + 2) p1 p2 p3)) ∧
    ((s.psr.me = true ∨ s.psr.de = true) → exec (.int n) s = .fault (.exceptionInHandler .software))

/-- reti restores the pc and, under the write mask of the mode, PSR, and adds 8 to SSP. R580, R581, R585 of
60_exceptions.md. The choices of the model: reti in user mode pops from SSP and writes PSR under the user mask (R581
"the spec's reading", D22, log 32), and the end-of-instruction check uses the restored flags (log 17). The return
makes the stores so far visible to fetches (R104 of 20_memory.md, log 4). It rests on choices, the spec's where a D is
named, else the model's: what makes a store visible to fetches (D11, log 4), the rights while ME = 1 (D30, log 33),
protected bits keep their value (D4, log 34). -/
def Obligations.ReturnFromTrap : Prop :=
  ∀ (s : State) (p1 p2 : Word), s.Free .reti →
    s.translate .read (s.ssp + 4) = some p1 → s.translate .read s.ssp = some p2 →
    exec .reti s = .next (({ s.writePsr (s.physRead .word p2) with
      ssp := s.ssp + 8
      nmiInService := false
      stores := [] } : State).complete (even (s.physRead .word p1)))

/-- reti right after a trap entry resumes the interrupted program with PC, PSR and SSP as they were. R570, R580 and
R585 of 60_exceptions.md composed; R37 to R39 of 10_state.md. It rests on choices, the spec's where a D is named, else
the model's: the check after reti uses the restored flags (log 17), the mode in which each access of the entry is
translated (log 20). -/
def Obligations.ReturnRestoresContext : Prop :=
  ∀ (s : State) (n : BitVec 8) (level : Option (BitVec 4)) (nmi : Bool) (ret restart p1 p2 p3 : Word),
    s.psr.me = false → s.psr.de = false → EntryMaps s n.toNat p1 p2 p3 →
    even ret = ret → 4 ≤ (p1 - p2).toNat → 4 ≤ (p2 - p1).toNat →
    let h := entered s level nmi ret p1 p2 p3
    h.translate .read (h.ssp + 4) = some p1 → h.translate .read h.ssp = some p2 →
    ¬ (s.psr.rm = true ∧ h.pc = even s.lsa) → ¬ (s.psr.lm = true ∧ h.pc = even s.lea) →
    ∃ t, s.trap n level nmi ret restart = .next h ∧ exec .reti h = .next t ∧
      t.pc = ret ∧ t.psr = s.psr ∧ t.ssp = s.ssp ∧ t.usp = s.usp ∧ t.gpr = s.gpr ∧
      t.alr = s.alr ∧ t.ahr = s.ahr ∧ t.lco = s.lco ∧ t.lsa = s.lsa ∧ t.lea = s.lea ∧ t.sor = s.sor ∧
      t.ttbr = s.ttbr ∧ t.dp = s.dp ∧ t.nmiInService = false ∧
      ∀ q : Word, 4 ≤ (q - p1).toNat → 4 ≤ (q - p2).toNat → t.byteAt q = s.byteAt q

/-- brk enters the debug handler and retd leaves it. R596 and R597 of 60_exceptions.md, R595 there and R93 of
20_memory.md. The choices of the model: the accesses of the debug exception are physical, not translated (D6, log 39),
and a brk inside a handler stops (D29, log 19). It rests on choices, the spec's where a D is named, else the model's:
the debug base (D24, log 12), the stop in a delay slot (D14, log 15), brk counts in the read windows (log 22), the
record of stored bytes (D11, log 4). -/
def Obligations.DebugException : Prop :=
  decodeHalf 0x0400#16 = some .brk ∧ decodeHalf 0x0440#16 = some .retd ∧
  ∀ s : State,
    (s.delay ≠ none → exec .brk s = .fault .prohibitedDelaySlot ∧ exec .retd s = .fault .prohibitedDelaySlot) ∧
    (s.misplaced .brk = none → s.psr.me = false → s.psr.de = false →
      exec .brk s = .next (debugEntered (retired s) (s.pc + 2)) ∧
      ∀ q : Word, 8 ≤ (q - (debugBase s + 8)).toNat →
        (debugEntered (retired s) (s.pc + 2)).byteAt q = s.byteAt q) ∧
    (s.misplaced .brk = none → s.psr.me = true ∨ s.psr.de = true →
      exec .brk s = .fault (.exceptionInHandler .breakpoint)) ∧
    (s.misplaced .retd = none →
      exec .retd s = .next (({ s.setReg 0 (s.physRead .word (debugBase s + 12)) with
        psr := { s.psr with de := false }
        stores := [] } : State).complete (even (s.physRead .word (debugBase s + 8)))))

/-- retm leaves the MMU handler; MMU entry saves PC and R0, sets ME and reads the vector at 0x10. R591 of
60_exceptions.md; the entry is R590, with the decision of R598 and R569 inside a debug handler. It rests on choices,
the spec's where a D is named, else the model's: the stop inside a debug handler (D29, log 19), the stop of retm in a
delay slot (D14, log 15), the record of stored bytes (D11, log 4). -/
def Obligations.MmuException : Prop :=
  decodeHalf 0x06C0#16 = some .retm ∧
  ∀ s : State,
    (s.delay ≠ none → exec .retm s = .fault .prohibitedDelaySlot) ∧
    (s.misplaced .retm = none →
      exec .retm s = .next (({ s.setReg 0 (s.physRead .word 0x1C) with
        psr := { s.psr with me := false }
        stores := [] } : State).complete (even (s.physRead .word 0x18)))) ∧
    (∀ ret, s.psr.de = false → s.mmuException ret = .next (mmuEntered s ret) ∧
      ∀ q : Word, 8 ≤ (q - 0x18#32).toNat → (mmuEntered s ret).byteAt q = s.byteAt q) ∧
    (∀ ret, s.psr.de = true → s.mmuException ret = .fault (.exceptionInHandler .mmu))

/-- Which event a running core accepts at a boundary: debug break, then NMI, then a maskable request above IL. R562,
R568, R583 to R586, R592, R598 of 60_exceptions.md; R534 a of 52_ext.md; R394 of 48_branch.md. The choice of the
model: a debug break is not accepted between a prefix and its target or a branch and its slot (D31, R595, log 37),
where R534 f quotes "at once". It rests on choices, the spec's where a D is named, else the model's: inputs examined
at boundaries (D9, log 6), nothing between a branch and its slot (D27, log 15) or a prefix and its target (D21, log
26), ME = 1 as supervisor mode (D30, log 33), the debug base (D24, log 12), the record of stored bytes (D11, log 4),
the mode in which each access of a trap entry is translated (log 20). -/
def Obligations.InterruptAcceptance : Prop :=
  ∀ (s : State) (input : HostInput) (rest : List HostInput),
    s.run = .running → s.inputs = input :: rest → input.reset = none →
    let t : State := { s with inputs := rest }
    let boundary : Prop := s.ext.count = 0 ∧ s.delay = none ∧ s.psr.me = false ∧ s.psr.de = false
    let nmi : Prop := input.nmi = true ∧ s.nmiMasked = false ∧ s.nmiInService = false
    let accepted : Request → Prop := fun r => input.request = some r ∧ s.psr.ie = true ∧ s.psr.il.toNat < r.level.toNat
    (boundary → input.debugBreak = true → step s = .next (debugEntered t s.pc)) ∧
    (boundary → input.debugBreak = false → nmi → ∀ p1 p2 p3, EntryMaps t 7 p1 p2 p3 →
      step s = .next (entered t none true s.pc p1 p2 p3)) ∧
    (boundary → input.debugBreak = false → ¬ nmi → ∀ r, accepted r → ∀ p1 p2 p3,
      EntryMaps t (16 + r.source.val) p1 p2 p3 → step s = .next (entered t (some r.level) false s.pc p1 p2 p3)) ∧
    (¬ boundary ∨ (input.debugBreak = false ∧ ¬ nmi ∧ ∀ r, ¬ accepted r) → step s = t.runInstruction)

/-- Register, flag, prefix, jump, loop and coprocessor instructions leave memory and the exception state alone. The
function lines of the family files; ME and DE are read-only (10_state.md R36). The record of stores is the model's
(log 4). -/
def Obligations.QuietInstructionFrame : Prop :=
  ∀ (i : Instr) (s t : State), isQuiet i = true → exec i s = .next t →
    t.mem = s.mem ∧ (∀ q, t.byteAt q = s.byteAt q) ∧ t.inputs = s.inputs ∧ t.params = s.params ∧
    t.nmiInService = s.nmiInService ∧ t.psr.me = s.psr.me ∧ t.psr.de = s.psr.de ∧
    ((∀ n r, i ≠ .ldwSd n r) → t.ttbr = s.ttbr ∧ t.dp = s.dp ∧ t.nmiMasked = s.nmiMasked ∧
      ((∀ n, i ≠ .addSp n ∧ i ≠ .subSp n) → t.ssp = s.ssp ∧ t.usp = s.usp) ∧
      (writesAccumulator i = false → t.alr = s.alr ∧ t.ahr = s.ahr) ∧
      (isShift i = false → t.sor = s.sor) ∧
      (isLoop i = false → t.lea = s.lea ∧
        (isRepeat i = false → t.lsa = s.lsa ∧
          (t.lco = s.lco ∨ (t.lco = s.lco - 1 ∧ s.lco ≠ 0 ∧
            ((t.psr.rm = true ∧ s.pc = even s.lsa) ∨ (t.psr.lm = true ∧ s.pc = even s.lea))))))) ∧
    t.staleFetch = s.staleFetch ∧ (t.stores = s.stores ∨ (t.stores = [] ∧ branchForm i = some false)) ∧
    ((∀ r n, i ≠ .ldcRead r n ∧ i ≠ .ldcWrite n r) → (∀ c, i ≠ .doC c) → t.cop = s.cop) ∧
    (i ≠ .halt → i ≠ .slp → t.run = s.run)

end Statements
end

