-- ==== Sys2Proof/Laws/State.lean ====
section
/-! SUPPORT. For each update of the state, one lemma for each field it leaves alone and, where it is one value, for the
field it writes. -/

namespace Sys2Proof.Machine

/-! ## setReg -/

@[simp] theorem setReg_pc (s : State) (n : Reg) (v : Word) : (s.setReg n v).pc = s.pc := rfl
@[simp] theorem setReg_psr (s : State) (n : Reg) (v : Word) : (s.setReg n v).psr = s.psr := rfl
@[simp] theorem setReg_ssp (s : State) (n : Reg) (v : Word) : (s.setReg n v).ssp = s.ssp := rfl
@[simp] theorem setReg_usp (s : State) (n : Reg) (v : Word) : (s.setReg n v).usp = s.usp := rfl
@[simp] theorem setReg_alr (s : State) (n : Reg) (v : Word) : (s.setReg n v).alr = s.alr := rfl
@[simp] theorem setReg_ahr (s : State) (n : Reg) (v : Word) : (s.setReg n v).ahr = s.ahr := rfl
@[simp] theorem setReg_lco (s : State) (n : Reg) (v : Word) : (s.setReg n v).lco = s.lco := rfl
@[simp] theorem setReg_lsa (s : State) (n : Reg) (v : Word) : (s.setReg n v).lsa = s.lsa := rfl
@[simp] theorem setReg_lea (s : State) (n : Reg) (v : Word) : (s.setReg n v).lea = s.lea := rfl
@[simp] theorem setReg_sor (s : State) (n : Reg) (v : Word) : (s.setReg n v).sor = s.sor := rfl
@[simp] theorem setReg_ttbr (s : State) (n : Reg) (v : Word) : (s.setReg n v).ttbr = s.ttbr := rfl
@[simp] theorem setReg_dp (s : State) (n : Reg) (v : Word) : (s.setReg n v).dp = s.dp := rfl
@[simp] theorem setReg_mem (s : State) (n : Reg) (v : Word) : (s.setReg n v).mem = s.mem := rfl
@[simp] theorem setReg_ext (s : State) (n : Reg) (v : Word) : (s.setReg n v).ext = s.ext := rfl
@[simp] theorem setReg_delay (s : State) (n : Reg) (v : Word) : (s.setReg n v).delay = s.delay := rfl
@[simp] theorem setReg_nmiMasked (s : State) (n : Reg) (v : Word) : (s.setReg n v).nmiMasked = s.nmiMasked := rfl
@[simp] theorem setReg_nmiInService (s : State) (n : Reg) (v : Word) : (s.setReg n v).nmiInService = s.nmiInService := rfl
@[simp] theorem setReg_run (s : State) (n : Reg) (v : Word) : (s.setReg n v).run = s.run := rfl
@[simp] theorem setReg_dsWindow (s : State) (n : Reg) (v : Word) : (s.setReg n v).dsWindow = s.dsWindow := rfl
@[simp] theorem setReg_macWindow (s : State) (n : Reg) (v : Word) : (s.setReg n v).macWindow = s.macWindow := rfl
@[simp] theorem setReg_cop (s : State) (n : Reg) (v : Word) : (s.setReg n v).cop = s.cop := rfl
@[simp] theorem setReg_inputs (s : State) (n : Reg) (v : Word) : (s.setReg n v).inputs = s.inputs := rfl
@[simp] theorem setReg_params (s : State) (n : Reg) (v : Word) : (s.setReg n v).params = s.params := rfl
@[simp] theorem setReg_stores (s : State) (n : Reg) (v : Word) : (s.setReg n v).stores = s.stores := rfl
@[simp] theorem setReg_staleFetch (s : State) (n : Reg) (v : Word) : (s.setReg n v).staleFetch = s.staleFetch := rfl
@[simp] theorem setReg_free (s : State) (n : Reg) (v : Word) : (s.setReg n v).free = s.free := rfl

/-! ## writePsr -/

@[simp] theorem writePsr_gpr (s : State) (v : Word) : (s.writePsr v).gpr = s.gpr := rfl
@[simp] theorem writePsr_pc (s : State) (v : Word) : (s.writePsr v).pc = s.pc := rfl
@[simp] theorem writePsr_ssp (s : State) (v : Word) : (s.writePsr v).ssp = s.ssp := rfl
@[simp] theorem writePsr_usp (s : State) (v : Word) : (s.writePsr v).usp = s.usp := rfl
@[simp] theorem writePsr_alr (s : State) (v : Word) : (s.writePsr v).alr = s.alr := rfl
@[simp] theorem writePsr_ahr (s : State) (v : Word) : (s.writePsr v).ahr = s.ahr := rfl
@[simp] theorem writePsr_lco (s : State) (v : Word) : (s.writePsr v).lco = s.lco := rfl
@[simp] theorem writePsr_lsa (s : State) (v : Word) : (s.writePsr v).lsa = s.lsa := rfl
@[simp] theorem writePsr_lea (s : State) (v : Word) : (s.writePsr v).lea = s.lea := rfl
@[simp] theorem writePsr_sor (s : State) (v : Word) : (s.writePsr v).sor = s.sor := rfl
@[simp] theorem writePsr_ttbr (s : State) (v : Word) : (s.writePsr v).ttbr = s.ttbr := rfl
@[simp] theorem writePsr_dp (s : State) (v : Word) : (s.writePsr v).dp = s.dp := rfl
@[simp] theorem writePsr_mem (s : State) (v : Word) : (s.writePsr v).mem = s.mem := rfl
@[simp] theorem writePsr_ext (s : State) (v : Word) : (s.writePsr v).ext = s.ext := rfl
@[simp] theorem writePsr_delay (s : State) (v : Word) : (s.writePsr v).delay = s.delay := rfl
@[simp] theorem writePsr_nmiMasked (s : State) (v : Word) : (s.writePsr v).nmiMasked = s.nmiMasked := rfl
@[simp] theorem writePsr_nmiInService (s : State) (v : Word) : (s.writePsr v).nmiInService = s.nmiInService := rfl
@[simp] theorem writePsr_run (s : State) (v : Word) : (s.writePsr v).run = s.run := rfl
@[simp] theorem writePsr_dsWindow (s : State) (v : Word) : (s.writePsr v).dsWindow = s.dsWindow := rfl
@[simp] theorem writePsr_macWindow (s : State) (v : Word) : (s.writePsr v).macWindow = s.macWindow := rfl
@[simp] theorem writePsr_cop (s : State) (v : Word) : (s.writePsr v).cop = s.cop := rfl
@[simp] theorem writePsr_inputs (s : State) (v : Word) : (s.writePsr v).inputs = s.inputs := rfl
@[simp] theorem writePsr_params (s : State) (v : Word) : (s.writePsr v).params = s.params := rfl
@[simp] theorem writePsr_stores (s : State) (v : Word) : (s.writePsr v).stores = s.stores := rfl
@[simp] theorem writePsr_staleFetch (s : State) (v : Word) : (s.writePsr v).staleFetch = s.staleFetch := rfl
@[simp] theorem writePsr_free (s : State) (v : Word) : (s.writePsr v).free = s.free := rfl

/-! ## setPm -/

@[simp] theorem setPm_gpr (s : State) (b : Bool) : (s.setPm b).gpr = s.gpr := rfl
@[simp] theorem setPm_pc (s : State) (b : Bool) : (s.setPm b).pc = s.pc := rfl
@[simp] theorem setPm_ssp (s : State) (b : Bool) : (s.setPm b).ssp = s.ssp := rfl
@[simp] theorem setPm_usp (s : State) (b : Bool) : (s.setPm b).usp = s.usp := rfl
@[simp] theorem setPm_alr (s : State) (b : Bool) : (s.setPm b).alr = s.alr := rfl
@[simp] theorem setPm_ahr (s : State) (b : Bool) : (s.setPm b).ahr = s.ahr := rfl
@[simp] theorem setPm_lco (s : State) (b : Bool) : (s.setPm b).lco = s.lco := rfl
@[simp] theorem setPm_lsa (s : State) (b : Bool) : (s.setPm b).lsa = s.lsa := rfl
@[simp] theorem setPm_lea (s : State) (b : Bool) : (s.setPm b).lea = s.lea := rfl
@[simp] theorem setPm_sor (s : State) (b : Bool) : (s.setPm b).sor = s.sor := rfl
@[simp] theorem setPm_ttbr (s : State) (b : Bool) : (s.setPm b).ttbr = s.ttbr := rfl
@[simp] theorem setPm_dp (s : State) (b : Bool) : (s.setPm b).dp = s.dp := rfl
@[simp] theorem setPm_mem (s : State) (b : Bool) : (s.setPm b).mem = s.mem := rfl
@[simp] theorem setPm_ext (s : State) (b : Bool) : (s.setPm b).ext = s.ext := rfl
@[simp] theorem setPm_delay (s : State) (b : Bool) : (s.setPm b).delay = s.delay := rfl
@[simp] theorem setPm_nmiMasked (s : State) (b : Bool) : (s.setPm b).nmiMasked = s.nmiMasked := rfl
@[simp] theorem setPm_nmiInService (s : State) (b : Bool) : (s.setPm b).nmiInService = s.nmiInService := rfl
@[simp] theorem setPm_run (s : State) (b : Bool) : (s.setPm b).run = s.run := rfl
@[simp] theorem setPm_dsWindow (s : State) (b : Bool) : (s.setPm b).dsWindow = s.dsWindow := rfl
@[simp] theorem setPm_macWindow (s : State) (b : Bool) : (s.setPm b).macWindow = s.macWindow := rfl
@[simp] theorem setPm_cop (s : State) (b : Bool) : (s.setPm b).cop = s.cop := rfl
@[simp] theorem setPm_inputs (s : State) (b : Bool) : (s.setPm b).inputs = s.inputs := rfl
@[simp] theorem setPm_params (s : State) (b : Bool) : (s.setPm b).params = s.params := rfl
@[simp] theorem setPm_stores (s : State) (b : Bool) : (s.setPm b).stores = s.stores := rfl
@[simp] theorem setPm_staleFetch (s : State) (b : Bool) : (s.setPm b).staleFetch = s.staleFetch := rfl
@[simp] theorem setPm_free (s : State) (b : Bool) : (s.setPm b).free = s.free := rfl

/-! ## markRc -/

@[simp] theorem markRc_gpr (s : State) (n : Reg) : (State.markRc n s).gpr = s.gpr := rfl
@[simp] theorem markRc_pc (s : State) (n : Reg) : (State.markRc n s).pc = s.pc := rfl
@[simp] theorem markRc_ssp (s : State) (n : Reg) : (State.markRc n s).ssp = s.ssp := rfl
@[simp] theorem markRc_usp (s : State) (n : Reg) : (State.markRc n s).usp = s.usp := rfl
@[simp] theorem markRc_alr (s : State) (n : Reg) : (State.markRc n s).alr = s.alr := rfl
@[simp] theorem markRc_ahr (s : State) (n : Reg) : (State.markRc n s).ahr = s.ahr := rfl
@[simp] theorem markRc_lco (s : State) (n : Reg) : (State.markRc n s).lco = s.lco := rfl
@[simp] theorem markRc_lsa (s : State) (n : Reg) : (State.markRc n s).lsa = s.lsa := rfl
@[simp] theorem markRc_lea (s : State) (n : Reg) : (State.markRc n s).lea = s.lea := rfl
@[simp] theorem markRc_sor (s : State) (n : Reg) : (State.markRc n s).sor = s.sor := rfl
@[simp] theorem markRc_ttbr (s : State) (n : Reg) : (State.markRc n s).ttbr = s.ttbr := rfl
@[simp] theorem markRc_dp (s : State) (n : Reg) : (State.markRc n s).dp = s.dp := rfl
@[simp] theorem markRc_mem (s : State) (n : Reg) : (State.markRc n s).mem = s.mem := rfl
@[simp] theorem markRc_ext (s : State) (n : Reg) : (State.markRc n s).ext = s.ext := rfl
@[simp] theorem markRc_delay (s : State) (n : Reg) : (State.markRc n s).delay = s.delay := rfl
@[simp] theorem markRc_nmiMasked (s : State) (n : Reg) : (State.markRc n s).nmiMasked = s.nmiMasked := rfl
@[simp] theorem markRc_nmiInService (s : State) (n : Reg) : (State.markRc n s).nmiInService = s.nmiInService := rfl
@[simp] theorem markRc_run (s : State) (n : Reg) : (State.markRc n s).run = s.run := rfl
@[simp] theorem markRc_dsWindow (s : State) (n : Reg) : (State.markRc n s).dsWindow = s.dsWindow := rfl
@[simp] theorem markRc_macWindow (s : State) (n : Reg) : (State.markRc n s).macWindow = s.macWindow := rfl
@[simp] theorem markRc_cop (s : State) (n : Reg) : (State.markRc n s).cop = s.cop := rfl
@[simp] theorem markRc_inputs (s : State) (n : Reg) : (State.markRc n s).inputs = s.inputs := rfl
@[simp] theorem markRc_params (s : State) (n : Reg) : (State.markRc n s).params = s.params := rfl
@[simp] theorem markRc_stores (s : State) (n : Reg) : (State.markRc n s).stores = s.stores := rfl
@[simp] theorem markRc_staleFetch (s : State) (n : Reg) : (State.markRc n s).staleFetch = s.staleFetch := rfl
@[simp] theorem markRc_free (s : State) (n : Reg) : (State.markRc n s).free = s.free := rfl

/-! ## retire -/

@[simp] theorem retire_gpr (s : State) : (s.retire).gpr = s.gpr := rfl
@[simp] theorem retire_pc (s : State) : (s.retire).pc = s.pc := rfl
@[simp] theorem retire_psr (s : State) : (s.retire).psr = s.psr := rfl
@[simp] theorem retire_ssp (s : State) : (s.retire).ssp = s.ssp := rfl
@[simp] theorem retire_usp (s : State) : (s.retire).usp = s.usp := rfl
@[simp] theorem retire_alr (s : State) : (s.retire).alr = s.alr := rfl
@[simp] theorem retire_ahr (s : State) : (s.retire).ahr = s.ahr := rfl
@[simp] theorem retire_lco (s : State) : (s.retire).lco = s.lco := rfl
@[simp] theorem retire_lsa (s : State) : (s.retire).lsa = s.lsa := rfl
@[simp] theorem retire_lea (s : State) : (s.retire).lea = s.lea := rfl
@[simp] theorem retire_sor (s : State) : (s.retire).sor = s.sor := rfl
@[simp] theorem retire_ttbr (s : State) : (s.retire).ttbr = s.ttbr := rfl
@[simp] theorem retire_dp (s : State) : (s.retire).dp = s.dp := rfl
@[simp] theorem retire_mem (s : State) : (s.retire).mem = s.mem := rfl
@[simp] theorem retire_delay (s : State) : (s.retire).delay = s.delay := rfl
@[simp] theorem retire_nmiMasked (s : State) : (s.retire).nmiMasked = s.nmiMasked := rfl
@[simp] theorem retire_nmiInService (s : State) : (s.retire).nmiInService = s.nmiInService := rfl
@[simp] theorem retire_run (s : State) : (s.retire).run = s.run := rfl
@[simp] theorem retire_cop (s : State) : (s.retire).cop = s.cop := rfl
@[simp] theorem retire_inputs (s : State) : (s.retire).inputs = s.inputs := rfl
@[simp] theorem retire_params (s : State) : (s.retire).params = s.params := rfl
@[simp] theorem retire_stores (s : State) : (s.retire).stores = s.stores := rfl
@[simp] theorem retire_staleFetch (s : State) : (s.retire).staleFetch = s.staleFetch := rfl
@[simp] theorem retire_free (s : State) : (s.retire).free = s.free := rfl

/-! ## completeDelayed -/

@[simp] theorem completeDelayed_gpr (s : State) (a : Word) : (s.completeDelayed a).gpr = s.gpr := rfl
@[simp] theorem completeDelayed_psr (s : State) (a : Word) : (s.completeDelayed a).psr = s.psr := rfl
@[simp] theorem completeDelayed_ssp (s : State) (a : Word) : (s.completeDelayed a).ssp = s.ssp := rfl
@[simp] theorem completeDelayed_usp (s : State) (a : Word) : (s.completeDelayed a).usp = s.usp := rfl
@[simp] theorem completeDelayed_alr (s : State) (a : Word) : (s.completeDelayed a).alr = s.alr := rfl
@[simp] theorem completeDelayed_ahr (s : State) (a : Word) : (s.completeDelayed a).ahr = s.ahr := rfl
@[simp] theorem completeDelayed_lco (s : State) (a : Word) : (s.completeDelayed a).lco = s.lco := rfl
@[simp] theorem completeDelayed_lsa (s : State) (a : Word) : (s.completeDelayed a).lsa = s.lsa := rfl
@[simp] theorem completeDelayed_lea (s : State) (a : Word) : (s.completeDelayed a).lea = s.lea := rfl
@[simp] theorem completeDelayed_sor (s : State) (a : Word) : (s.completeDelayed a).sor = s.sor := rfl
@[simp] theorem completeDelayed_ttbr (s : State) (a : Word) : (s.completeDelayed a).ttbr = s.ttbr := rfl
@[simp] theorem completeDelayed_dp (s : State) (a : Word) : (s.completeDelayed a).dp = s.dp := rfl
@[simp] theorem completeDelayed_mem (s : State) (a : Word) : (s.completeDelayed a).mem = s.mem := rfl
@[simp] theorem completeDelayed_nmiMasked (s : State) (a : Word) : (s.completeDelayed a).nmiMasked = s.nmiMasked := rfl
@[simp] theorem completeDelayed_nmiInService (s : State) (a : Word) : (s.completeDelayed a).nmiInService = s.nmiInService := rfl
@[simp] theorem completeDelayed_run (s : State) (a : Word) : (s.completeDelayed a).run = s.run := rfl
@[simp] theorem completeDelayed_cop (s : State) (a : Word) : (s.completeDelayed a).cop = s.cop := rfl
@[simp] theorem completeDelayed_inputs (s : State) (a : Word) : (s.completeDelayed a).inputs = s.inputs := rfl
@[simp] theorem completeDelayed_params (s : State) (a : Word) : (s.completeDelayed a).params = s.params := rfl
@[simp] theorem completeDelayed_stores (s : State) (a : Word) : (s.completeDelayed a).stores = s.stores := rfl
@[simp] theorem completeDelayed_staleFetch (s : State) (a : Word) : (s.completeDelayed a).staleFetch = s.staleFetch := rfl
@[simp] theorem completeDelayed_free (s : State) (a : Word) : (s.completeDelayed a).free = s.free := rfl

/-! ## setSp -/

@[simp] theorem setSp_gpr (s : State) (v : Word) : (s.setSp v).gpr = s.gpr := by
  simp only [State.setSp, apply_ite State.gpr, ite_self]
@[simp] theorem setSp_pc (s : State) (v : Word) : (s.setSp v).pc = s.pc := by
  simp only [State.setSp, apply_ite State.pc, ite_self]
@[simp] theorem setSp_psr (s : State) (v : Word) : (s.setSp v).psr = s.psr := by
  simp only [State.setSp, apply_ite State.psr, ite_self]
@[simp] theorem setSp_alr (s : State) (v : Word) : (s.setSp v).alr = s.alr := by
  simp only [State.setSp, apply_ite State.alr, ite_self]
@[simp] theorem setSp_ahr (s : State) (v : Word) : (s.setSp v).ahr = s.ahr := by
  simp only [State.setSp, apply_ite State.ahr, ite_self]
@[simp] theorem setSp_lco (s : State) (v : Word) : (s.setSp v).lco = s.lco := by
  simp only [State.setSp, apply_ite State.lco, ite_self]
@[simp] theorem setSp_lsa (s : State) (v : Word) : (s.setSp v).lsa = s.lsa := by
  simp only [State.setSp, apply_ite State.lsa, ite_self]
@[simp] theorem setSp_lea (s : State) (v : Word) : (s.setSp v).lea = s.lea := by
  simp only [State.setSp, apply_ite State.lea, ite_self]
@[simp] theorem setSp_sor (s : State) (v : Word) : (s.setSp v).sor = s.sor := by
  simp only [State.setSp, apply_ite State.sor, ite_self]
@[simp] theorem setSp_ttbr (s : State) (v : Word) : (s.setSp v).ttbr = s.ttbr := by
  simp only [State.setSp, apply_ite State.ttbr, ite_self]
@[simp] theorem setSp_dp (s : State) (v : Word) : (s.setSp v).dp = s.dp := by
  simp only [State.setSp, apply_ite State.dp, ite_self]
@[simp] theorem setSp_mem (s : State) (v : Word) : (s.setSp v).mem = s.mem := by
  simp only [State.setSp, apply_ite State.mem, ite_self]
@[simp] theorem setSp_ext (s : State) (v : Word) : (s.setSp v).ext = s.ext := by
  simp only [State.setSp, apply_ite State.ext, ite_self]
@[simp] theorem setSp_delay (s : State) (v : Word) : (s.setSp v).delay = s.delay := by
  simp only [State.setSp, apply_ite State.delay, ite_self]
@[simp] theorem setSp_nmiMasked (s : State) (v : Word) : (s.setSp v).nmiMasked = s.nmiMasked := by
  simp only [State.setSp, apply_ite State.nmiMasked, ite_self]
@[simp] theorem setSp_nmiInService (s : State) (v : Word) : (s.setSp v).nmiInService = s.nmiInService := by
  simp only [State.setSp, apply_ite State.nmiInService, ite_self]
@[simp] theorem setSp_run (s : State) (v : Word) : (s.setSp v).run = s.run := by
  simp only [State.setSp, apply_ite State.run, ite_self]
@[simp] theorem setSp_dsWindow (s : State) (v : Word) : (s.setSp v).dsWindow = s.dsWindow := by
  simp only [State.setSp, apply_ite State.dsWindow, ite_self]
@[simp] theorem setSp_macWindow (s : State) (v : Word) : (s.setSp v).macWindow = s.macWindow := by
  simp only [State.setSp, apply_ite State.macWindow, ite_self]
@[simp] theorem setSp_cop (s : State) (v : Word) : (s.setSp v).cop = s.cop := by
  simp only [State.setSp, apply_ite State.cop, ite_self]
@[simp] theorem setSp_inputs (s : State) (v : Word) : (s.setSp v).inputs = s.inputs := by
  simp only [State.setSp, apply_ite State.inputs, ite_self]
@[simp] theorem setSp_params (s : State) (v : Word) : (s.setSp v).params = s.params := by
  simp only [State.setSp, apply_ite State.params, ite_self]
@[simp] theorem setSp_stores (s : State) (v : Word) : (s.setSp v).stores = s.stores := by
  simp only [State.setSp, apply_ite State.stores, ite_self]
@[simp] theorem setSp_staleFetch (s : State) (v : Word) : (s.setSp v).staleFetch = s.staleFetch := by
  simp only [State.setSp, apply_ite State.staleFetch, ite_self]
@[simp] theorem setSp_free (s : State) (v : Word) : (s.setSp v).free = s.free := by
  simp only [State.setSp, apply_ite State.free, ite_self]

/-! ## writeAlr -/

@[simp] theorem writeAlr_pc (s : State) (v : Word) : (s.writeAlr v).pc = s.pc := by unfold State.writeAlr; dsimp only; split <;> rfl
@[simp] theorem writeAlr_psr (s : State) (v : Word) : (s.writeAlr v).psr = s.psr := by unfold State.writeAlr; dsimp only; split <;> rfl
@[simp] theorem writeAlr_ssp (s : State) (v : Word) : (s.writeAlr v).ssp = s.ssp := by unfold State.writeAlr; dsimp only; split <;> rfl
@[simp] theorem writeAlr_usp (s : State) (v : Word) : (s.writeAlr v).usp = s.usp := by unfold State.writeAlr; dsimp only; split <;> rfl
@[simp] theorem writeAlr_ahr (s : State) (v : Word) : (s.writeAlr v).ahr = s.ahr := by unfold State.writeAlr; dsimp only; split <;> rfl
@[simp] theorem writeAlr_lco (s : State) (v : Word) : (s.writeAlr v).lco = s.lco := by unfold State.writeAlr; dsimp only; split <;> rfl
@[simp] theorem writeAlr_lsa (s : State) (v : Word) : (s.writeAlr v).lsa = s.lsa := by unfold State.writeAlr; dsimp only; split <;> rfl
@[simp] theorem writeAlr_lea (s : State) (v : Word) : (s.writeAlr v).lea = s.lea := by unfold State.writeAlr; dsimp only; split <;> rfl
@[simp] theorem writeAlr_sor (s : State) (v : Word) : (s.writeAlr v).sor = s.sor := by unfold State.writeAlr; dsimp only; split <;> rfl
@[simp] theorem writeAlr_ttbr (s : State) (v : Word) : (s.writeAlr v).ttbr = s.ttbr := by unfold State.writeAlr; dsimp only; split <;> rfl
@[simp] theorem writeAlr_dp (s : State) (v : Word) : (s.writeAlr v).dp = s.dp := by unfold State.writeAlr; dsimp only; split <;> rfl
@[simp] theorem writeAlr_mem (s : State) (v : Word) : (s.writeAlr v).mem = s.mem := by unfold State.writeAlr; dsimp only; split <;> rfl
@[simp] theorem writeAlr_ext (s : State) (v : Word) : (s.writeAlr v).ext = s.ext := by unfold State.writeAlr; dsimp only; split <;> rfl
@[simp] theorem writeAlr_delay (s : State) (v : Word) : (s.writeAlr v).delay = s.delay := by unfold State.writeAlr; dsimp only; split <;> rfl
@[simp] theorem writeAlr_nmiMasked (s : State) (v : Word) : (s.writeAlr v).nmiMasked = s.nmiMasked := by unfold State.writeAlr; dsimp only; split <;> rfl
@[simp] theorem writeAlr_nmiInService (s : State) (v : Word) : (s.writeAlr v).nmiInService = s.nmiInService := by unfold State.writeAlr; dsimp only; split <;> rfl
@[simp] theorem writeAlr_run (s : State) (v : Word) : (s.writeAlr v).run = s.run := by unfold State.writeAlr; dsimp only; split <;> rfl
@[simp] theorem writeAlr_dsWindow (s : State) (v : Word) : (s.writeAlr v).dsWindow = s.dsWindow := by unfold State.writeAlr; dsimp only; split <;> rfl
@[simp] theorem writeAlr_macWindow (s : State) (v : Word) : (s.writeAlr v).macWindow = s.macWindow := by unfold State.writeAlr; dsimp only; split <;> rfl
@[simp] theorem writeAlr_cop (s : State) (v : Word) : (s.writeAlr v).cop = s.cop := by unfold State.writeAlr; dsimp only; split <;> rfl
@[simp] theorem writeAlr_inputs (s : State) (v : Word) : (s.writeAlr v).inputs = s.inputs := by unfold State.writeAlr; dsimp only; split <;> rfl
@[simp] theorem writeAlr_params (s : State) (v : Word) : (s.writeAlr v).params = s.params := by unfold State.writeAlr; dsimp only; split <;> rfl
@[simp] theorem writeAlr_stores (s : State) (v : Word) : (s.writeAlr v).stores = s.stores := by unfold State.writeAlr; dsimp only; split <;> rfl
@[simp] theorem writeAlr_staleFetch (s : State) (v : Word) : (s.writeAlr v).staleFetch = s.staleFetch := by unfold State.writeAlr; dsimp only; split <;> rfl
@[simp] theorem writeAlr_free (s : State) (v : Word) : (s.writeAlr v).free = s.free := by unfold State.writeAlr; dsimp only; split <;> rfl

/-! ## writeAhr -/

@[simp] theorem writeAhr_pc (s : State) (v : Word) : (s.writeAhr v).pc = s.pc := by unfold State.writeAhr; dsimp only; split <;> rfl
@[simp] theorem writeAhr_psr (s : State) (v : Word) : (s.writeAhr v).psr = s.psr := by unfold State.writeAhr; dsimp only; split <;> rfl
@[simp] theorem writeAhr_ssp (s : State) (v : Word) : (s.writeAhr v).ssp = s.ssp := by unfold State.writeAhr; dsimp only; split <;> rfl
@[simp] theorem writeAhr_usp (s : State) (v : Word) : (s.writeAhr v).usp = s.usp := by unfold State.writeAhr; dsimp only; split <;> rfl
@[simp] theorem writeAhr_alr (s : State) (v : Word) : (s.writeAhr v).alr = s.alr := by unfold State.writeAhr; dsimp only; split <;> rfl
@[simp] theorem writeAhr_lco (s : State) (v : Word) : (s.writeAhr v).lco = s.lco := by unfold State.writeAhr; dsimp only; split <;> rfl
@[simp] theorem writeAhr_lsa (s : State) (v : Word) : (s.writeAhr v).lsa = s.lsa := by unfold State.writeAhr; dsimp only; split <;> rfl
@[simp] theorem writeAhr_lea (s : State) (v : Word) : (s.writeAhr v).lea = s.lea := by unfold State.writeAhr; dsimp only; split <;> rfl
@[simp] theorem writeAhr_sor (s : State) (v : Word) : (s.writeAhr v).sor = s.sor := by unfold State.writeAhr; dsimp only; split <;> rfl
@[simp] theorem writeAhr_ttbr (s : State) (v : Word) : (s.writeAhr v).ttbr = s.ttbr := by unfold State.writeAhr; dsimp only; split <;> rfl
@[simp] theorem writeAhr_dp (s : State) (v : Word) : (s.writeAhr v).dp = s.dp := by unfold State.writeAhr; dsimp only; split <;> rfl
@[simp] theorem writeAhr_mem (s : State) (v : Word) : (s.writeAhr v).mem = s.mem := by unfold State.writeAhr; dsimp only; split <;> rfl
@[simp] theorem writeAhr_ext (s : State) (v : Word) : (s.writeAhr v).ext = s.ext := by unfold State.writeAhr; dsimp only; split <;> rfl
@[simp] theorem writeAhr_delay (s : State) (v : Word) : (s.writeAhr v).delay = s.delay := by unfold State.writeAhr; dsimp only; split <;> rfl
@[simp] theorem writeAhr_nmiMasked (s : State) (v : Word) : (s.writeAhr v).nmiMasked = s.nmiMasked := by unfold State.writeAhr; dsimp only; split <;> rfl
@[simp] theorem writeAhr_nmiInService (s : State) (v : Word) : (s.writeAhr v).nmiInService = s.nmiInService := by unfold State.writeAhr; dsimp only; split <;> rfl
@[simp] theorem writeAhr_run (s : State) (v : Word) : (s.writeAhr v).run = s.run := by unfold State.writeAhr; dsimp only; split <;> rfl
@[simp] theorem writeAhr_dsWindow (s : State) (v : Word) : (s.writeAhr v).dsWindow = s.dsWindow := by unfold State.writeAhr; dsimp only; split <;> rfl
@[simp] theorem writeAhr_macWindow (s : State) (v : Word) : (s.writeAhr v).macWindow = s.macWindow := by unfold State.writeAhr; dsimp only; split <;> rfl
@[simp] theorem writeAhr_cop (s : State) (v : Word) : (s.writeAhr v).cop = s.cop := by unfold State.writeAhr; dsimp only; split <;> rfl
@[simp] theorem writeAhr_inputs (s : State) (v : Word) : (s.writeAhr v).inputs = s.inputs := by unfold State.writeAhr; dsimp only; split <;> rfl
@[simp] theorem writeAhr_params (s : State) (v : Word) : (s.writeAhr v).params = s.params := by unfold State.writeAhr; dsimp only; split <;> rfl
@[simp] theorem writeAhr_stores (s : State) (v : Word) : (s.writeAhr v).stores = s.stores := by unfold State.writeAhr; dsimp only; split <;> rfl
@[simp] theorem writeAhr_staleFetch (s : State) (v : Word) : (s.writeAhr v).staleFetch = s.staleFetch := by unfold State.writeAhr; dsimp only; split <;> rfl
@[simp] theorem writeAhr_free (s : State) (v : Word) : (s.writeAhr v).free = s.free := by unfold State.writeAhr; dsimp only; split <;> rfl

/-! ## writeAcc -/

@[simp] theorem writeAcc_pc (s : State) (v : BitVec 64) : (s.writeAcc v).pc = s.pc := by simp [State.writeAcc]
@[simp] theorem writeAcc_psr (s : State) (v : BitVec 64) : (s.writeAcc v).psr = s.psr := by simp [State.writeAcc]
@[simp] theorem writeAcc_ssp (s : State) (v : BitVec 64) : (s.writeAcc v).ssp = s.ssp := by simp [State.writeAcc]
@[simp] theorem writeAcc_usp (s : State) (v : BitVec 64) : (s.writeAcc v).usp = s.usp := by simp [State.writeAcc]
@[simp] theorem writeAcc_lco (s : State) (v : BitVec 64) : (s.writeAcc v).lco = s.lco := by simp [State.writeAcc]
@[simp] theorem writeAcc_lsa (s : State) (v : BitVec 64) : (s.writeAcc v).lsa = s.lsa := by simp [State.writeAcc]
@[simp] theorem writeAcc_lea (s : State) (v : BitVec 64) : (s.writeAcc v).lea = s.lea := by simp [State.writeAcc]
@[simp] theorem writeAcc_sor (s : State) (v : BitVec 64) : (s.writeAcc v).sor = s.sor := by simp [State.writeAcc]
@[simp] theorem writeAcc_ttbr (s : State) (v : BitVec 64) : (s.writeAcc v).ttbr = s.ttbr := by simp [State.writeAcc]
@[simp] theorem writeAcc_dp (s : State) (v : BitVec 64) : (s.writeAcc v).dp = s.dp := by simp [State.writeAcc]
@[simp] theorem writeAcc_mem (s : State) (v : BitVec 64) : (s.writeAcc v).mem = s.mem := by simp [State.writeAcc]
@[simp] theorem writeAcc_ext (s : State) (v : BitVec 64) : (s.writeAcc v).ext = s.ext := by simp [State.writeAcc]
@[simp] theorem writeAcc_delay (s : State) (v : BitVec 64) : (s.writeAcc v).delay = s.delay := by simp [State.writeAcc]
@[simp] theorem writeAcc_nmiMasked (s : State) (v : BitVec 64) : (s.writeAcc v).nmiMasked = s.nmiMasked := by simp [State.writeAcc]
@[simp] theorem writeAcc_nmiInService (s : State) (v : BitVec 64) : (s.writeAcc v).nmiInService = s.nmiInService := by simp [State.writeAcc]
@[simp] theorem writeAcc_run (s : State) (v : BitVec 64) : (s.writeAcc v).run = s.run := by simp [State.writeAcc]
@[simp] theorem writeAcc_dsWindow (s : State) (v : BitVec 64) : (s.writeAcc v).dsWindow = s.dsWindow := by simp [State.writeAcc]
@[simp] theorem writeAcc_macWindow (s : State) (v : BitVec 64) : (s.writeAcc v).macWindow = s.macWindow := by simp [State.writeAcc]
@[simp] theorem writeAcc_cop (s : State) (v : BitVec 64) : (s.writeAcc v).cop = s.cop := by simp [State.writeAcc]
@[simp] theorem writeAcc_inputs (s : State) (v : BitVec 64) : (s.writeAcc v).inputs = s.inputs := by simp [State.writeAcc]
@[simp] theorem writeAcc_params (s : State) (v : BitVec 64) : (s.writeAcc v).params = s.params := by simp [State.writeAcc]
@[simp] theorem writeAcc_stores (s : State) (v : BitVec 64) : (s.writeAcc v).stores = s.stores := by simp [State.writeAcc]
@[simp] theorem writeAcc_staleFetch (s : State) (v : BitVec 64) : (s.writeAcc v).staleFetch = s.staleFetch := by simp [State.writeAcc]
@[simp] theorem writeAcc_free (s : State) (v : BitVec 64) : (s.writeAcc v).free = s.free := by simp [State.writeAcc]

/-! ## physWrite -/

@[simp] theorem physWrite_gpr (s : State) (z : Size) (p v : Word) : (s.physWrite z p v).gpr = s.gpr := rfl
@[simp] theorem physWrite_pc (s : State) (z : Size) (p v : Word) : (s.physWrite z p v).pc = s.pc := rfl
@[simp] theorem physWrite_psr (s : State) (z : Size) (p v : Word) : (s.physWrite z p v).psr = s.psr := rfl
@[simp] theorem physWrite_ssp (s : State) (z : Size) (p v : Word) : (s.physWrite z p v).ssp = s.ssp := rfl
@[simp] theorem physWrite_usp (s : State) (z : Size) (p v : Word) : (s.physWrite z p v).usp = s.usp := rfl
@[simp] theorem physWrite_alr (s : State) (z : Size) (p v : Word) : (s.physWrite z p v).alr = s.alr := rfl
@[simp] theorem physWrite_ahr (s : State) (z : Size) (p v : Word) : (s.physWrite z p v).ahr = s.ahr := rfl
@[simp] theorem physWrite_lco (s : State) (z : Size) (p v : Word) : (s.physWrite z p v).lco = s.lco := rfl
@[simp] theorem physWrite_lsa (s : State) (z : Size) (p v : Word) : (s.physWrite z p v).lsa = s.lsa := rfl
@[simp] theorem physWrite_lea (s : State) (z : Size) (p v : Word) : (s.physWrite z p v).lea = s.lea := rfl
@[simp] theorem physWrite_sor (s : State) (z : Size) (p v : Word) : (s.physWrite z p v).sor = s.sor := rfl
@[simp] theorem physWrite_ttbr (s : State) (z : Size) (p v : Word) : (s.physWrite z p v).ttbr = s.ttbr := rfl
@[simp] theorem physWrite_dp (s : State) (z : Size) (p v : Word) : (s.physWrite z p v).dp = s.dp := rfl
@[simp] theorem physWrite_ext (s : State) (z : Size) (p v : Word) : (s.physWrite z p v).ext = s.ext := rfl
@[simp] theorem physWrite_delay (s : State) (z : Size) (p v : Word) : (s.physWrite z p v).delay = s.delay := rfl
@[simp] theorem physWrite_nmiMasked (s : State) (z : Size) (p v : Word) : (s.physWrite z p v).nmiMasked = s.nmiMasked := rfl
@[simp] theorem physWrite_nmiInService (s : State) (z : Size) (p v : Word) : (s.physWrite z p v).nmiInService = s.nmiInService := rfl
@[simp] theorem physWrite_run (s : State) (z : Size) (p v : Word) : (s.physWrite z p v).run = s.run := rfl
@[simp] theorem physWrite_dsWindow (s : State) (z : Size) (p v : Word) : (s.physWrite z p v).dsWindow = s.dsWindow := rfl
@[simp] theorem physWrite_macWindow (s : State) (z : Size) (p v : Word) : (s.physWrite z p v).macWindow = s.macWindow := rfl
@[simp] theorem physWrite_cop (s : State) (z : Size) (p v : Word) : (s.physWrite z p v).cop = s.cop := rfl
@[simp] theorem physWrite_inputs (s : State) (z : Size) (p v : Word) : (s.physWrite z p v).inputs = s.inputs := rfl
@[simp] theorem physWrite_params (s : State) (z : Size) (p v : Word) : (s.physWrite z p v).params = s.params := rfl
@[simp] theorem physWrite_stores (s : State) (z : Size) (p v : Word) : (s.physWrite z p v).stores = s.stores := rfl
@[simp] theorem physWrite_staleFetch (s : State) (z : Size) (p v : Word) : (s.physWrite z p v).staleFetch = s.staleFetch := rfl
@[simp] theorem physWrite_free (s : State) (z : Size) (p v : Word) : (s.physWrite z p v).free = s.free := rfl

/-! ## noteStore -/

@[simp] theorem noteStore_gpr (s : State) (z : Size) (p : Word) : (s.noteStore z p).gpr = s.gpr := rfl
@[simp] theorem noteStore_pc (s : State) (z : Size) (p : Word) : (s.noteStore z p).pc = s.pc := rfl
@[simp] theorem noteStore_psr (s : State) (z : Size) (p : Word) : (s.noteStore z p).psr = s.psr := rfl
@[simp] theorem noteStore_ssp (s : State) (z : Size) (p : Word) : (s.noteStore z p).ssp = s.ssp := rfl
@[simp] theorem noteStore_usp (s : State) (z : Size) (p : Word) : (s.noteStore z p).usp = s.usp := rfl
@[simp] theorem noteStore_alr (s : State) (z : Size) (p : Word) : (s.noteStore z p).alr = s.alr := rfl
@[simp] theorem noteStore_ahr (s : State) (z : Size) (p : Word) : (s.noteStore z p).ahr = s.ahr := rfl
@[simp] theorem noteStore_lco (s : State) (z : Size) (p : Word) : (s.noteStore z p).lco = s.lco := rfl
@[simp] theorem noteStore_lsa (s : State) (z : Size) (p : Word) : (s.noteStore z p).lsa = s.lsa := rfl
@[simp] theorem noteStore_lea (s : State) (z : Size) (p : Word) : (s.noteStore z p).lea = s.lea := rfl
@[simp] theorem noteStore_sor (s : State) (z : Size) (p : Word) : (s.noteStore z p).sor = s.sor := rfl
@[simp] theorem noteStore_ttbr (s : State) (z : Size) (p : Word) : (s.noteStore z p).ttbr = s.ttbr := rfl
@[simp] theorem noteStore_dp (s : State) (z : Size) (p : Word) : (s.noteStore z p).dp = s.dp := rfl
@[simp] theorem noteStore_mem (s : State) (z : Size) (p : Word) : (s.noteStore z p).mem = s.mem := rfl
@[simp] theorem noteStore_ext (s : State) (z : Size) (p : Word) : (s.noteStore z p).ext = s.ext := rfl
@[simp] theorem noteStore_delay (s : State) (z : Size) (p : Word) : (s.noteStore z p).delay = s.delay := rfl
@[simp] theorem noteStore_nmiMasked (s : State) (z : Size) (p : Word) : (s.noteStore z p).nmiMasked = s.nmiMasked := rfl
@[simp] theorem noteStore_nmiInService (s : State) (z : Size) (p : Word) : (s.noteStore z p).nmiInService = s.nmiInService := rfl
@[simp] theorem noteStore_run (s : State) (z : Size) (p : Word) : (s.noteStore z p).run = s.run := rfl
@[simp] theorem noteStore_dsWindow (s : State) (z : Size) (p : Word) : (s.noteStore z p).dsWindow = s.dsWindow := rfl
@[simp] theorem noteStore_macWindow (s : State) (z : Size) (p : Word) : (s.noteStore z p).macWindow = s.macWindow := rfl
@[simp] theorem noteStore_cop (s : State) (z : Size) (p : Word) : (s.noteStore z p).cop = s.cop := rfl
@[simp] theorem noteStore_inputs (s : State) (z : Size) (p : Word) : (s.noteStore z p).inputs = s.inputs := rfl
@[simp] theorem noteStore_params (s : State) (z : Size) (p : Word) : (s.noteStore z p).params = s.params := rfl
@[simp] theorem noteStore_staleFetch (s : State) (z : Size) (p : Word) : (s.noteStore z p).staleFetch = s.staleFetch := rfl
@[simp] theorem noteStore_free (s : State) (z : Size) (p : Word) : (s.noteStore z p).free = s.free := rfl

/-! ## discardPrefetch -/

@[simp] theorem discardPrefetch_gpr (s : State) : (s.discardPrefetch).gpr = s.gpr := rfl
@[simp] theorem discardPrefetch_pc (s : State) : (s.discardPrefetch).pc = s.pc := rfl
@[simp] theorem discardPrefetch_psr (s : State) : (s.discardPrefetch).psr = s.psr := rfl
@[simp] theorem discardPrefetch_ssp (s : State) : (s.discardPrefetch).ssp = s.ssp := rfl
@[simp] theorem discardPrefetch_usp (s : State) : (s.discardPrefetch).usp = s.usp := rfl
@[simp] theorem discardPrefetch_alr (s : State) : (s.discardPrefetch).alr = s.alr := rfl
@[simp] theorem discardPrefetch_ahr (s : State) : (s.discardPrefetch).ahr = s.ahr := rfl
@[simp] theorem discardPrefetch_lco (s : State) : (s.discardPrefetch).lco = s.lco := rfl
@[simp] theorem discardPrefetch_lsa (s : State) : (s.discardPrefetch).lsa = s.lsa := rfl
@[simp] theorem discardPrefetch_lea (s : State) : (s.discardPrefetch).lea = s.lea := rfl
@[simp] theorem discardPrefetch_sor (s : State) : (s.discardPrefetch).sor = s.sor := rfl
@[simp] theorem discardPrefetch_ttbr (s : State) : (s.discardPrefetch).ttbr = s.ttbr := rfl
@[simp] theorem discardPrefetch_dp (s : State) : (s.discardPrefetch).dp = s.dp := rfl
@[simp] theorem discardPrefetch_mem (s : State) : (s.discardPrefetch).mem = s.mem := rfl
@[simp] theorem discardPrefetch_ext (s : State) : (s.discardPrefetch).ext = s.ext := rfl
@[simp] theorem discardPrefetch_delay (s : State) : (s.discardPrefetch).delay = s.delay := rfl
@[simp] theorem discardPrefetch_nmiMasked (s : State) : (s.discardPrefetch).nmiMasked = s.nmiMasked := rfl
@[simp] theorem discardPrefetch_nmiInService (s : State) : (s.discardPrefetch).nmiInService = s.nmiInService := rfl
@[simp] theorem discardPrefetch_run (s : State) : (s.discardPrefetch).run = s.run := rfl
@[simp] theorem discardPrefetch_dsWindow (s : State) : (s.discardPrefetch).dsWindow = s.dsWindow := rfl
@[simp] theorem discardPrefetch_macWindow (s : State) : (s.discardPrefetch).macWindow = s.macWindow := rfl
@[simp] theorem discardPrefetch_cop (s : State) : (s.discardPrefetch).cop = s.cop := rfl
@[simp] theorem discardPrefetch_inputs (s : State) : (s.discardPrefetch).inputs = s.inputs := rfl
@[simp] theorem discardPrefetch_params (s : State) : (s.discardPrefetch).params = s.params := rfl
@[simp] theorem discardPrefetch_staleFetch (s : State) : (s.discardPrefetch).staleFetch = s.staleFetch := rfl
@[simp] theorem discardPrefetch_free (s : State) : (s.discardPrefetch).free = s.free := rfl

/-! ## noteFetch -/

@[simp] theorem noteFetch_gpr (s : State) (p : Word) : (s.noteFetch p).gpr = s.gpr := rfl
@[simp] theorem noteFetch_pc (s : State) (p : Word) : (s.noteFetch p).pc = s.pc := rfl
@[simp] theorem noteFetch_psr (s : State) (p : Word) : (s.noteFetch p).psr = s.psr := rfl
@[simp] theorem noteFetch_ssp (s : State) (p : Word) : (s.noteFetch p).ssp = s.ssp := rfl
@[simp] theorem noteFetch_usp (s : State) (p : Word) : (s.noteFetch p).usp = s.usp := rfl
@[simp] theorem noteFetch_alr (s : State) (p : Word) : (s.noteFetch p).alr = s.alr := rfl
@[simp] theorem noteFetch_ahr (s : State) (p : Word) : (s.noteFetch p).ahr = s.ahr := rfl
@[simp] theorem noteFetch_lco (s : State) (p : Word) : (s.noteFetch p).lco = s.lco := rfl
@[simp] theorem noteFetch_lsa (s : State) (p : Word) : (s.noteFetch p).lsa = s.lsa := rfl
@[simp] theorem noteFetch_lea (s : State) (p : Word) : (s.noteFetch p).lea = s.lea := rfl
@[simp] theorem noteFetch_sor (s : State) (p : Word) : (s.noteFetch p).sor = s.sor := rfl
@[simp] theorem noteFetch_ttbr (s : State) (p : Word) : (s.noteFetch p).ttbr = s.ttbr := rfl
@[simp] theorem noteFetch_dp (s : State) (p : Word) : (s.noteFetch p).dp = s.dp := rfl
@[simp] theorem noteFetch_mem (s : State) (p : Word) : (s.noteFetch p).mem = s.mem := rfl
@[simp] theorem noteFetch_ext (s : State) (p : Word) : (s.noteFetch p).ext = s.ext := rfl
@[simp] theorem noteFetch_delay (s : State) (p : Word) : (s.noteFetch p).delay = s.delay := rfl
@[simp] theorem noteFetch_nmiMasked (s : State) (p : Word) : (s.noteFetch p).nmiMasked = s.nmiMasked := rfl
@[simp] theorem noteFetch_nmiInService (s : State) (p : Word) : (s.noteFetch p).nmiInService = s.nmiInService := rfl
@[simp] theorem noteFetch_run (s : State) (p : Word) : (s.noteFetch p).run = s.run := rfl
@[simp] theorem noteFetch_dsWindow (s : State) (p : Word) : (s.noteFetch p).dsWindow = s.dsWindow := rfl
@[simp] theorem noteFetch_macWindow (s : State) (p : Word) : (s.noteFetch p).macWindow = s.macWindow := rfl
@[simp] theorem noteFetch_cop (s : State) (p : Word) : (s.noteFetch p).cop = s.cop := rfl
@[simp] theorem noteFetch_inputs (s : State) (p : Word) : (s.noteFetch p).inputs = s.inputs := rfl
@[simp] theorem noteFetch_params (s : State) (p : Word) : (s.noteFetch p).params = s.params := rfl
@[simp] theorem noteFetch_stores (s : State) (p : Word) : (s.noteFetch p).stores = s.stores := rfl
@[simp] theorem noteFetch_free (s : State) (p : Word) : (s.noteFetch p).free = s.free := rfl

/-! ## fetched -/

@[simp] theorem fetched_gpr (s : State) : (s.fetched).gpr = s.gpr := by unfold State.fetched; split <;> rfl
@[simp] theorem fetched_pc (s : State) : (s.fetched).pc = s.pc := by unfold State.fetched; split <;> rfl
@[simp] theorem fetched_psr (s : State) : (s.fetched).psr = s.psr := by unfold State.fetched; split <;> rfl
@[simp] theorem fetched_ssp (s : State) : (s.fetched).ssp = s.ssp := by unfold State.fetched; split <;> rfl
@[simp] theorem fetched_usp (s : State) : (s.fetched).usp = s.usp := by unfold State.fetched; split <;> rfl
@[simp] theorem fetched_alr (s : State) : (s.fetched).alr = s.alr := by unfold State.fetched; split <;> rfl
@[simp] theorem fetched_ahr (s : State) : (s.fetched).ahr = s.ahr := by unfold State.fetched; split <;> rfl
@[simp] theorem fetched_lco (s : State) : (s.fetched).lco = s.lco := by unfold State.fetched; split <;> rfl
@[simp] theorem fetched_lsa (s : State) : (s.fetched).lsa = s.lsa := by unfold State.fetched; split <;> rfl
@[simp] theorem fetched_lea (s : State) : (s.fetched).lea = s.lea := by unfold State.fetched; split <;> rfl
@[simp] theorem fetched_sor (s : State) : (s.fetched).sor = s.sor := by unfold State.fetched; split <;> rfl
@[simp] theorem fetched_ttbr (s : State) : (s.fetched).ttbr = s.ttbr := by unfold State.fetched; split <;> rfl
@[simp] theorem fetched_dp (s : State) : (s.fetched).dp = s.dp := by unfold State.fetched; split <;> rfl
@[simp] theorem fetched_mem (s : State) : (s.fetched).mem = s.mem := by unfold State.fetched; split <;> rfl
@[simp] theorem fetched_ext (s : State) : (s.fetched).ext = s.ext := by unfold State.fetched; split <;> rfl
@[simp] theorem fetched_delay (s : State) : (s.fetched).delay = s.delay := by unfold State.fetched; split <;> rfl
@[simp] theorem fetched_nmiMasked (s : State) : (s.fetched).nmiMasked = s.nmiMasked := by unfold State.fetched; split <;> rfl
@[simp] theorem fetched_nmiInService (s : State) : (s.fetched).nmiInService = s.nmiInService := by unfold State.fetched; split <;> rfl
@[simp] theorem fetched_run (s : State) : (s.fetched).run = s.run := by unfold State.fetched; split <;> rfl
@[simp] theorem fetched_dsWindow (s : State) : (s.fetched).dsWindow = s.dsWindow := by unfold State.fetched; split <;> rfl
@[simp] theorem fetched_macWindow (s : State) : (s.fetched).macWindow = s.macWindow := by unfold State.fetched; split <;> rfl
@[simp] theorem fetched_cop (s : State) : (s.fetched).cop = s.cop := by unfold State.fetched; split <;> rfl
@[simp] theorem fetched_inputs (s : State) : (s.fetched).inputs = s.inputs := by unfold State.fetched; split <;> rfl
@[simp] theorem fetched_params (s : State) : (s.fetched).params = s.params := by unfold State.fetched; split <;> rfl
@[simp] theorem fetched_stores (s : State) : (s.fetched).stores = s.stores := by unfold State.fetched; split <;> rfl
@[simp] theorem fetched_free (s : State) : (s.fetched).free = s.free := by unfold State.fetched; split <;> rfl

/-! ## redirect -/

@[simp] theorem redirect_gpr (s : State) (a npc : Word) : (s.redirect a npc).gpr = s.gpr := by
  simp only [State.redirect, apply_ite State.gpr, ite_self]
@[simp] theorem redirect_ssp (s : State) (a npc : Word) : (s.redirect a npc).ssp = s.ssp := by
  simp only [State.redirect, apply_ite State.ssp, ite_self]
@[simp] theorem redirect_usp (s : State) (a npc : Word) : (s.redirect a npc).usp = s.usp := by
  simp only [State.redirect, apply_ite State.usp, ite_self]
@[simp] theorem redirect_alr (s : State) (a npc : Word) : (s.redirect a npc).alr = s.alr := by
  simp only [State.redirect, apply_ite State.alr, ite_self]
@[simp] theorem redirect_ahr (s : State) (a npc : Word) : (s.redirect a npc).ahr = s.ahr := by
  simp only [State.redirect, apply_ite State.ahr, ite_self]
@[simp] theorem redirect_lsa (s : State) (a npc : Word) : (s.redirect a npc).lsa = s.lsa := by
  simp only [State.redirect, apply_ite State.lsa, ite_self]
@[simp] theorem redirect_lea (s : State) (a npc : Word) : (s.redirect a npc).lea = s.lea := by
  simp only [State.redirect, apply_ite State.lea, ite_self]
@[simp] theorem redirect_sor (s : State) (a npc : Word) : (s.redirect a npc).sor = s.sor := by
  simp only [State.redirect, apply_ite State.sor, ite_self]
@[simp] theorem redirect_ttbr (s : State) (a npc : Word) : (s.redirect a npc).ttbr = s.ttbr := by
  simp only [State.redirect, apply_ite State.ttbr, ite_self]
@[simp] theorem redirect_dp (s : State) (a npc : Word) : (s.redirect a npc).dp = s.dp := by
  simp only [State.redirect, apply_ite State.dp, ite_self]
@[simp] theorem redirect_mem (s : State) (a npc : Word) : (s.redirect a npc).mem = s.mem := by
  simp only [State.redirect, apply_ite State.mem, ite_self]
@[simp] theorem redirect_ext (s : State) (a npc : Word) : (s.redirect a npc).ext = s.ext := by
  simp only [State.redirect, apply_ite State.ext, ite_self]
@[simp] theorem redirect_delay (s : State) (a npc : Word) : (s.redirect a npc).delay = s.delay := by
  simp only [State.redirect, apply_ite State.delay, ite_self]
@[simp] theorem redirect_nmiMasked (s : State) (a npc : Word) : (s.redirect a npc).nmiMasked = s.nmiMasked := by
  simp only [State.redirect, apply_ite State.nmiMasked, ite_self]
@[simp] theorem redirect_nmiInService (s : State) (a npc : Word) : (s.redirect a npc).nmiInService = s.nmiInService := by
  simp only [State.redirect, apply_ite State.nmiInService, ite_self]
@[simp] theorem redirect_run (s : State) (a npc : Word) : (s.redirect a npc).run = s.run := by
  simp only [State.redirect, apply_ite State.run, ite_self]
@[simp] theorem redirect_dsWindow (s : State) (a npc : Word) : (s.redirect a npc).dsWindow = s.dsWindow := by
  simp only [State.redirect, apply_ite State.dsWindow, ite_self]
@[simp] theorem redirect_macWindow (s : State) (a npc : Word) : (s.redirect a npc).macWindow = s.macWindow := by
  simp only [State.redirect, apply_ite State.macWindow, ite_self]
@[simp] theorem redirect_cop (s : State) (a npc : Word) : (s.redirect a npc).cop = s.cop := by
  simp only [State.redirect, apply_ite State.cop, ite_self]
@[simp] theorem redirect_inputs (s : State) (a npc : Word) : (s.redirect a npc).inputs = s.inputs := by
  simp only [State.redirect, apply_ite State.inputs, ite_self]
@[simp] theorem redirect_params (s : State) (a npc : Word) : (s.redirect a npc).params = s.params := by
  simp only [State.redirect, apply_ite State.params, ite_self]
@[simp] theorem redirect_stores (s : State) (a npc : Word) : (s.redirect a npc).stores = s.stores := by
  simp only [State.redirect, apply_ite State.stores, ite_self]
@[simp] theorem redirect_staleFetch (s : State) (a npc : Word) : (s.redirect a npc).staleFetch = s.staleFetch := by
  simp only [State.redirect, apply_ite State.staleFetch, ite_self]
@[simp] theorem redirect_free (s : State) (a npc : Word) : (s.redirect a npc).free = s.free := by
  simp only [State.redirect, apply_ite State.free, ite_self]

/-! ## complete -/

@[simp] theorem complete_gpr (s : State) (npc : Word) : (s.complete npc).gpr = s.gpr := by simp [State.complete]
@[simp] theorem complete_ssp (s : State) (npc : Word) : (s.complete npc).ssp = s.ssp := by simp [State.complete]
@[simp] theorem complete_usp (s : State) (npc : Word) : (s.complete npc).usp = s.usp := by simp [State.complete]
@[simp] theorem complete_alr (s : State) (npc : Word) : (s.complete npc).alr = s.alr := by simp [State.complete]
@[simp] theorem complete_ahr (s : State) (npc : Word) : (s.complete npc).ahr = s.ahr := by simp [State.complete]
@[simp] theorem complete_lsa (s : State) (npc : Word) : (s.complete npc).lsa = s.lsa := by simp [State.complete]
@[simp] theorem complete_lea (s : State) (npc : Word) : (s.complete npc).lea = s.lea := by simp [State.complete]
@[simp] theorem complete_sor (s : State) (npc : Word) : (s.complete npc).sor = s.sor := by simp [State.complete]
@[simp] theorem complete_ttbr (s : State) (npc : Word) : (s.complete npc).ttbr = s.ttbr := by simp [State.complete]
@[simp] theorem complete_dp (s : State) (npc : Word) : (s.complete npc).dp = s.dp := by simp [State.complete]
@[simp] theorem complete_mem (s : State) (npc : Word) : (s.complete npc).mem = s.mem := by simp [State.complete]
@[simp] theorem complete_nmiMasked (s : State) (npc : Word) : (s.complete npc).nmiMasked = s.nmiMasked := by simp [State.complete]
@[simp] theorem complete_nmiInService (s : State) (npc : Word) : (s.complete npc).nmiInService = s.nmiInService := by simp [State.complete]
@[simp] theorem complete_run (s : State) (npc : Word) : (s.complete npc).run = s.run := by simp [State.complete]
@[simp] theorem complete_cop (s : State) (npc : Word) : (s.complete npc).cop = s.cop := by simp [State.complete]
@[simp] theorem complete_inputs (s : State) (npc : Word) : (s.complete npc).inputs = s.inputs := by simp [State.complete]
@[simp] theorem complete_params (s : State) (npc : Word) : (s.complete npc).params = s.params := by simp [State.complete]
@[simp] theorem complete_stores (s : State) (npc : Word) : (s.complete npc).stores = s.stores := by simp [State.complete]
@[simp] theorem complete_staleFetch (s : State) (npc : Word) : (s.complete npc).staleFetch = s.staleFetch := by simp [State.complete]
@[simp] theorem complete_free (s : State) (npc : Word) : (s.complete npc).free = s.free := by simp [State.complete]

/-! ## The fields an update writes -/

@[simp] theorem setReg_reg_self (s : State) (n : Reg) (v : Word) : (s.setReg n v).reg n = v := by
  simp [State.setReg, State.reg]

theorem setReg_reg_of_ne (s : State) {n m : Reg} (v : Word) (h : m ≠ n) : (s.setReg n v).reg m = s.reg m := by
  have hv : n.toNat ≠ m.toNat := fun e => h (BitVec.eq_of_toNat_eq e.symm)
  simp [State.setReg, State.reg, hv]

/-- A register after a write: the value at the register written, else what it was. -/
theorem setReg_reg (s : State) (n m : Reg) (v : Word) :
    (s.setReg n v).reg m = if m = n then v else s.reg m := by
  by_cases h : m = n
  · subst h; simp
  · simp [h, setReg_reg_of_ne s v h]

/-- Registers depend on the register file alone. -/
theorem reg_congr {s t : State} (h : s.gpr = t.gpr) (n : Reg) : s.reg n = t.reg n := by
  simp [State.reg, h]

@[simp] theorem setSp_sp (s : State) (v : Word) : (s.setSp v).sp = wordAddress v := by
  unfold State.setSp State.sp; split <;> simp_all

@[simp] theorem writeAlr_alr (s : State) (v : Word) : (s.writeAlr v).alr = v := by
  unfold State.writeAlr; dsimp only; split <;> rfl

@[simp] theorem writeAhr_ahr (s : State) (v : Word) : (s.writeAhr v).ahr = v := by
  unfold State.writeAhr; dsimp only; split <;> rfl

/-- R4 is written with ALR exactly when LC = 1, and no other register is (10_state.md R21). -/
theorem writeAlr_reg (s : State) (v : Word) (m : Reg) :
    (s.writeAlr v).reg m = if s.psr.lc = true ∧ m = 4#4 then v else s.reg m := by
  unfold State.writeAlr; dsimp only
  by_cases h : s.psr.lc = true
  · simp only [h, if_true, true_and]; rw [setReg_reg]; rfl
  · simp only [h, Bool.false_eq_true, if_false, false_and]; rfl

/-- R5 is written with AHR exactly when HC = 1, and no other register is (10_state.md R21). -/
theorem writeAhr_reg (s : State) (v : Word) (m : Reg) :
    (s.writeAhr v).reg m = if s.psr.hc = true ∧ m = 5#4 then v else s.reg m := by
  unfold State.writeAhr; dsimp only
  by_cases h : s.psr.hc = true
  · simp only [h, if_true, true_and]; rw [setReg_reg]; rfl
  · simp only [h, Bool.false_eq_true, if_false, false_and]; rfl

@[simp] theorem noteStore_stores (s : State) (z : Size) (p : Word) : (s.noteStore z p).stores = z.span p ++ s.stores := rfl

@[simp] theorem discardPrefetch_stores (s : State) : s.discardPrefetch.stores = [] := rfl

@[simp] theorem noteFetch_staleFetch (s : State) (p : Word) :
    (s.noteFetch p).staleFetch = (s.staleFetch || s.stores.contains p || s.stores.contains (p + 1)) := rfl

@[simp] theorem retire_ext (s : State) : s.retire.ext = Ext.empty := rfl

@[simp] theorem redirect_reg (s : State) (a npc : Word) (n : Reg) : (s.redirect a npc).reg n = s.reg n :=
  reg_congr (redirect_gpr s a npc) n

@[simp] theorem complete_ext (s : State) (npc : Word) : (s.complete npc).ext = Ext.empty := by
  simp [State.complete]

@[simp] theorem complete_delay (s : State) (npc : Word) : (s.complete npc).delay = none := by
  simp [State.complete]

@[simp] theorem complete_reg (s : State) (npc : Word) (n : Reg) : (s.complete npc).reg n = s.reg n :=
  reg_congr (complete_gpr s npc) n

end Sys2Proof.Machine
end

