-- ==== Sys2Proof/Laws/Memory.lean ====
section
/-! SUPPORT. The memory: what a read gives after a write, and the canonical form under every memory operation. -/

namespace Sys2Proof.Machine

/-! ## Reads after the list operations -/

theorem Memory.read_erase (m : Memory) (a b : Nat) :
    (m.erase a).read b = if b = a then Memory.unlisted else m.read b := by
  induction m with
  | nil => simp [Memory.erase, Memory.read]
  | cons x m ih =>
    obtain ⟨c, w⟩ := x
    simp only [Memory.erase]
    split
    · next h => rw [ih]; split <;> simp_all [Memory.read]
    · next h =>
      simp only [Memory.read]
      split
      · next hb => subst hb; simp [Ne.symm h]
      · exact ih

theorem Memory.read_insert (m : Memory) (a b : Nat) (v : Byte) :
    (m.insert a v).read b = if b = a then v else m.read b := by
  induction m with
  | nil => simp [Memory.insert, Memory.read]
  | cons x m ih =>
    obtain ⟨c, w⟩ := x
    simp only [Memory.insert]
    split
    · simp only [Memory.read]
    · split
      · next h => subst h; simp only [Memory.read]; split <;> rfl
      · next h1 h2 =>
        simp only [Memory.read]
        split
        · next hb => subst hb; simp [Ne.symm h2]
        · exact ih

/-- A byte after a write: the value at the address written, else what it was. -/
theorem Memory.read_write (m : Memory) (a b : Nat) (v : Byte) :
    (m.write a v).read b = if b = a then v else m.read b := by
  unfold Memory.write
  split
  · next h => rw [Memory.read_erase, h]
  · exact Memory.read_insert m a b v

/-! ## The canonical form -/

theorem Memory.above_mono {lo hi : Nat} (h : lo < hi) : ∀ {m : Memory}, m.above hi = true → m.above lo = true
  | [], _ => rfl
  | (b, _) :: m, ha => by
    simp only [Memory.above, Bool.and_eq_true, decide_eq_true_eq] at ha ⊢
    exact ⟨by omega, Memory.above_mono h ha.2⟩

theorem Memory.above_erase {lo : Nat} (a : Nat) : ∀ {m : Memory}, m.above lo = true → (m.erase a).above lo = true
  | [], _ => rfl
  | (b, _) :: m, h => by
    simp only [Memory.above, Bool.and_eq_true, decide_eq_true_eq] at h
    simp only [Memory.erase]
    split
    · exact Memory.above_erase a h.2
    · simp [Memory.above, h.1, Memory.above_erase a h.2]

theorem Memory.above_insert {lo : Nat} {a : Nat} (v : Byte) (hl : lo < a) :
    ∀ {m : Memory}, m.above lo = true → (m.insert a v).above lo = true
  | [], _ => by simp [Memory.insert, Memory.above, hl]
  | (b, _) :: m, h => by
    simp only [Memory.above, Bool.and_eq_true, decide_eq_true_eq] at h
    simp only [Memory.insert]
    split
    · simp [Memory.above, hl, h.1, h.2]
    · split
      · simp [Memory.above, hl, h.2]
      · simp [Memory.above, h.1, Memory.above_insert v hl h.2]

theorem Memory.wf_erase (a : Nat) : ∀ {m : Memory}, m.wf = true → (m.erase a).wf = true
  | [], _ => rfl
  | (b, w) :: m, h => by
    simp only [Memory.wf, Bool.and_eq_true, decide_eq_true_eq] at h
    simp only [Memory.erase]
    split
    · exact Memory.wf_erase a h.2
    · simp only [Memory.wf, Bool.and_eq_true, decide_eq_true_eq]
      exact ⟨⟨h.1.1, Memory.above_erase a h.1.2⟩, Memory.wf_erase a h.2⟩

theorem Memory.wf_insert {a : Nat} {v : Byte} (ha : a < 4294967296) (hv : v ≠ Memory.unlisted) :
    ∀ {m : Memory}, m.wf = true → (m.insert a v).wf = true
  | [], _ => by simp [Memory.insert, Memory.wf, Memory.above, ha, hv]
  | (b, w) :: m, h => by
    have h0 := h
    simp only [Memory.wf, Bool.and_eq_true, decide_eq_true_eq] at h
    simp only [Memory.insert]
    split
    · next hab =>
      simp only [Memory.wf, Memory.above, Bool.and_eq_true, decide_eq_true_eq]
      exact ⟨⟨⟨ha, hv⟩, hab, Memory.above_mono hab h.1.2⟩, h⟩
    · split
      · next hab => subst hab; simp only [Memory.wf, Bool.and_eq_true, decide_eq_true_eq]; exact ⟨⟨⟨ha, hv⟩, h.1.2⟩, h.2⟩
      · next h1 h2 =>
        simp only [Memory.wf, Bool.and_eq_true, decide_eq_true_eq]
        exact ⟨⟨h.1.1, Memory.above_insert v (by omega) h.1.2⟩, Memory.wf_insert ha hv h.2⟩

/-- A write of a byte keeps the canonical form. -/
theorem Memory.wf_write {m : Memory} {a : Nat} (v : Byte) (ha : a < 4294967296) (h : m.wf = true) :
    (m.write a v).wf = true := by
  unfold Memory.write
  split
  · exact Memory.wf_erase a h
  · next hv => exact Memory.wf_insert ha hv h

theorem Memory.wf_setByte {m : Memory} (p : Word) (v : Byte) (h : m.wf = true) : (m.setByte p v).wf = true :=
  Memory.wf_write v p.isLt h

/-- A write of any size keeps the canonical form. -/
theorem Memory.wf_put {m : Memory} (big : Bool) (z : Size) (p v : Word) (h : m.wf = true) :
    (m.put big z p v).wf = true := by
  cases z <;> cases big <;> simp only [Memory.put] <;> repeat' (first | exact h | apply Memory.wf_setByte)

/-- Below every listed address an unlisted one is read. -/
theorem Memory.read_of_above {lo a : Nat} (ha : a ≤ lo) : ∀ {m : Memory}, m.above lo = true → m.read a = Memory.unlisted
  | [], _ => rfl
  | (b, w) :: m, h => by
    simp only [Memory.above, Bool.and_eq_true, decide_eq_true_eq] at h
    have hne : ¬ a = b := by omega
    simp [Memory.read, hne, Memory.read_of_above ha h.2]

/-- Canonical memories that read alike everywhere are the same list. -/
theorem Memory.eq_of_read : ∀ {m n : Memory}, m.wf = true → n.wf = true → (∀ a, m.read a = n.read a) → m = n
  | [], [], _, _, _ => rfl
  | [], (b, w) :: n, _, hn, h => by
    simp only [Memory.wf, Bool.and_eq_true, decide_eq_true_eq] at hn
    exact absurd (by simpa [Memory.read] using (h b).symm) hn.1.1.2
  | (b, w) :: m, [], hm, _, h => by
    simp only [Memory.wf, Bool.and_eq_true, decide_eq_true_eq] at hm
    exact absurd (by simpa [Memory.read] using h b) hm.1.1.2
  | (b, w) :: m, (c, x) :: n, hm, hn, h => by
    simp only [Memory.wf, Bool.and_eq_true, decide_eq_true_eq] at hm hn
    have hb := h b
    have hc := h c
    simp only [Memory.read, if_true] at hb hc
    have hbc : b = c := by
      rcases Nat.lt_trichotomy b c with hlt | he | hgt
      · rw [if_neg (by omega), Memory.read_of_above (Nat.le_of_lt hlt) hn.1.2] at hb
        exact absurd hb hm.1.1.2
      · exact he
      · rw [if_neg (by omega), Memory.read_of_above (Nat.le_of_lt hgt) hm.1.2] at hc
        exact absurd hc.symm hn.1.1.2
    subst hbc
    have hw : w = x := by simpa using hb
    subst hw
    have : m = n := Memory.eq_of_read hm.2 hn.2 fun a => by
      by_cases ha : a = b
      · subst ha
        rw [Memory.read_of_above (Nat.le_refl _) hm.1.2, Memory.read_of_above (Nat.le_refl _) hn.1.2]
      · simpa [Memory.read, ha] using h a
    rw [this]

/-! ## Physical accesses -/

theorem Memory.read_setByte (m : Memory) (p q : Word) (v : Byte) :
    (m.setByte p v).read q.toNat = if q = p then v else m.read q.toNat := by
  simp [Memory.setByte, Memory.read_write, BitVec.toNat_inj]

/-- Which byte of a value an access of size z has at offset k (20_memory.md R81). -/
def Size.index (z : Size) (bigEndian : Bool) (k : Nat) : Nat := if bigEndian then z.bytes.toNat - 1 - k else k

/-- Every byte of memory after a write of any size: the bytes of the value inside it, what they were outside. -/
theorem Memory.read_put (m : Memory) (big : Bool) (z : Size) (p q v : Word) :
    (m.put big z p v).read q.toNat =
      if (q - p).toNat < z.bytes.toNat then byteOf v (z.index big (q - p).toNat) else m.read q.toNat := by
  have h0 : (q - p).toNat = 0 ↔ q = p := by bv_omega
  have h1 : (q - p).toNat = 1 ↔ q = p + 1 := by bv_omega
  have h2 : (q - p).toNat = 2 ↔ q = p + 2 := by bv_omega
  have h3 : (q - p).toNat = 3 ↔ q = p + 3 := by bv_omega
  generalize hk : (q - p).toNat = k at *
  cases z <;> cases big <;>
    simp only [Memory.put, Memory.read_setByte, Size.bytes, Size.index, if_true, if_false, Bool.false_eq_true,
      ← h0, ← h1, ← h2, ← h3] <;>
    (rcases k with _ | _ | _ | _ | k <;> simp <;> omega)

theorem byteAt_physWrite (s : State) (z : Size) (p q v : Word) :
    (s.physWrite z p v).byteAt q =
      if (q - p).toNat < z.bytes.toNat then byteOf v (z.index s.params.bigEndian (q - p).toNat)
      else s.byteAt q :=
  Memory.read_put s.mem s.params.bigEndian z p q v

/-- A write outside an address leaves its byte. -/
theorem byteAt_physWrite_of_outside (s : State) (z : Size) {p q : Word} (v : Word)
    (h : ¬ (q - p).toNat < z.bytes.toNat) : (s.physWrite z p v).byteAt q = s.byteAt q := by
  rw [byteAt_physWrite, if_neg h]

/-- Reads depend on the memory and the byte order alone. -/
theorem physRead_congr {s t : State} (hm : s.mem = t.mem) (hp : s.params = t.params) (z : Size) (p : Word) :
    s.physRead z p = t.physRead z p := by
  simp [State.physRead, State.byteAt, hm, hp]

theorem byteOf_zero (v : Word) : byteOf v 0 = v.setWidth 8 := by
  apply BitVec.eq_of_getLsbD_eq; intro i hi
  simp [byteOf, hi, show i < 32 by omega]

theorem byteOf_half (v : Word) : byteOf v 1 ++ byteOf v 0 = v.setWidth 16 := by
  apply BitVec.eq_of_getLsbD_eq; intro i hi
  simp only [byteOf, BitVec.getLsbD_append, BitVec.getLsbD_extractLsb', BitVec.getLsbD_setWidth]
  by_cases h : i < 8
  · simp [h, hi]
  · simp [h, hi, show i - 8 < 8 by omega, show 8 + (i - 8) = i by omega]

theorem byteOf_word (v : Word) : byteOf v 3 ++ byteOf v 2 ++ byteOf v 1 ++ byteOf v 0 = v := by
  apply BitVec.eq_of_getLsbD_eq; intro i hi
  simp only [byteOf, BitVec.getLsbD_append, BitVec.getLsbD_extractLsb']
  by_cases h : i < 8
  · simp [h]
  · by_cases h1 : i - 8 < 8
    · simp [h, h1, show 8 + (i - 8) = i by omega]
    · by_cases h2 : i - 8 - 8 < 8
      · simp [h, h1, h2, show 16 + (i - 8 - 8) = i by omega]
      · simp [h, h1, h2, show i - 8 - 8 - 8 < 8 by omega, show 24 + (i - 8 - 8 - 8) = i by omega]

/-- A read of what was just written gives its low bytes (20_memory.md R81). -/
theorem physRead_physWrite (s : State) (z : Size) (p v : Word) :
    (s.physWrite z p v).physRead z p =
      match z with
      | .byte => (v.setWidth 8).setWidth 32
      | .half => (v.setWidth 16).setWidth 32
      | .word => v := by
  have e1 : (p + 1 - p : Word) = 1 := by bv_omega
  have e2 : (p + 2 - p : Word) = 2 := by bv_omega
  have e3 : (p + 3 - p : Word) = 3 := by bv_omega
  have r0 := byteAt_physWrite s z p p v
  have r1 := byteAt_physWrite s z p (p + 1) v
  have r2 := byteAt_physWrite s z p (p + 2) v
  have r3 := byteAt_physWrite s z p (p + 3) v
  rw [BitVec.sub_self] at r0
  rw [e1] at r1
  rw [e2] at r2
  rw [e3] at r3
  cases z with
  | byte =>
    cases hb : s.params.bigEndian <;> rw [hb] at r0 <;>
      exact (congrArg (BitVec.setWidth 32) r0).trans (congrArg (BitVec.setWidth 32) (byteOf_zero v))
  | half =>
    cases hb : s.params.bigEndian <;> rw [hb] at r0 r1 <;>
      simp only [State.physRead, physWrite_params, hb, r0, r1] <;>
      exact congrArg (BitVec.setWidth 32) (byteOf_half v)
  | word =>
    cases hb : s.params.bigEndian <;> rw [hb] at r0 r1 r2 r3 <;>
      simp only [State.physRead, physWrite_params, hb, r0, r1, r2, r3] <;>
      exact byteOf_word v

end Sys2Proof.Machine
end

