-- ==== Sys2Proof/Laws/Ops.lean ====
section
/-! SUPPORT. For each shared operation, what it does, said once: when it answers a next state and which, so that no proof
about an instruction needs to unfold it. -/

namespace Sys2Proof.Machine

/-! ## Placement and the condition -/

theorem free_of_plain {s : State} (hd : s.delay = none) (hr : s.psr.rm = false) (hl : s.psr.lm = false)
    (hc : s.ext.cond = none) (i : Instr) : s.Free i := by
  constructor
  · simp [State.misplaced, hd, hr, hl]
  · simp [State.skips, hc]

theorem issue_free {s : State} {i : Instr} (h : s.Free i) (f : State → Result) : s.issue i f = f s := by
  unfold State.issue
  rw [h.1]
  simp [h.2]

theorem issue_fault {s : State} {i : Instr} {e : Fault} (h : s.misplaced i = some e) (f : State → Result) :
    s.issue i f = .fault e := by
  unfold State.issue
  rw [h]

theorem issue_skip {s : State} {i : Instr} (hm : s.misplaced i = none) (hs : s.skips i = true) (f : State → Result) :
    s.issue i f = .next (s.complete (s.pc + 2)) := by
  unfold State.issue
  rw [hm]
  simp [hs, State.done]

/-- An instruction that gives a next state was skipped and only completed, or ran its effect. -/
theorem issue_next {s t : State} {i : Instr} {f : State → Result} (h : s.issue i f = .next t) :
    (s.misplaced i = none ∧ s.skips i = true ∧ t = s.complete (s.pc + 2)) ∨ (s.Free i ∧ f s = .next t) := by
  cases hm : s.misplaced i with
  | some e => rw [issue_fault hm] at h; cases h
  | none =>
    cases hs : s.skips i with
    | true => rw [issue_skip hm hs] at h; cases h; exact .inl ⟨rfl, rfl, rfl⟩
    | false =>
      have hf : s.Free i := ⟨hm, hs⟩
      rw [issue_free hf] at h
      exact .inr ⟨hf, h⟩

/-! ## Completion -/

theorem done_eq (s : State) : s.done = .next (s.complete (s.pc + 2)) := rfl

/-- Where completion goes, and what it does to the loop registers: the three cases of 50_loop_repeat.md R480. -/
theorem redirect_cases (s : State) (a npc : Word) :
    (s.psr.rm = true ∧ a = evenAddress s.lsa ∧
      s.redirect a npc = if s.lco = 0 then { s with psr := { s.psr with rm := false }, pc := a + 2 }
        else { s with lco := s.lco - 1, pc := a }) ∨
    (¬ (s.psr.rm = true ∧ a = evenAddress s.lsa) ∧ s.psr.lm = true ∧ a = evenAddress s.lea ∧
      s.redirect a npc = if s.lco = 0 then { s with psr := { s.psr with lm := false }, pc := a + 2 }
        else { s with lco := s.lco - 1, pc := evenAddress s.lsa }) ∨
    (¬ (s.psr.rm = true ∧ a = evenAddress s.lsa) ∧ ¬ (s.psr.lm = true ∧ a = evenAddress s.lea) ∧
      s.redirect a npc = { s with pc := npc }) := by
  unfold State.redirect
  by_cases hr : s.psr.rm = true ∧ a = evenAddress s.lsa
  · left; simp [hr.1, ← hr.2]
  · right
    have hr' : (s.psr.rm && a == evenAddress s.lsa) = false := by
      simpa [Bool.and_eq_false_iff] using hr
    by_cases hl : s.psr.lm = true ∧ a = evenAddress s.lea
    · left
      refine ⟨hr, hl.1, hl.2, ?_⟩
      rw [hr']
      simp [hl.1, ← hl.2]
    · right
      have hl' : (s.psr.lm && a == evenAddress s.lea) = false := by
        simpa [Bool.and_eq_false_iff] using hl
      refine ⟨hr, hl, ?_⟩
      rw [hr', hl']
      rfl

theorem complete_eq (s : State) (npc : Word) :
    s.complete npc = State.redirect { s.retire with delay := none } s.pc (s.delay.getD npc) := rfl

/-- Completion changes only RM and LM of PSR. -/
theorem redirect_psr (s : State) (a npc : Word) :
    ∃ rm lm, (s.redirect a npc).psr = { s.psr with rm := rm, lm := lm } := by
  rcases redirect_cases s a npc with ⟨_, _, h⟩ | ⟨_, _, _, h⟩ | ⟨_, _, h⟩ <;> rw [h]
  · split
    · exact ⟨_, _, rfl⟩
    · exact ⟨s.psr.rm, s.psr.lm, rfl⟩
  · split
    · exact ⟨_, _, rfl⟩
    · exact ⟨s.psr.rm, s.psr.lm, rfl⟩
  · exact ⟨s.psr.rm, s.psr.lm, rfl⟩

theorem complete_psr (s : State) (npc : Word) : ∃ rm lm, (s.complete npc).psr = { s.psr with rm := rm, lm := lm } :=
  redirect_psr _ _ _

@[simp] theorem complete_psr_me (s : State) (npc : Word) : (s.complete npc).psr.me = s.psr.me := by
  obtain ⟨_, _, h⟩ := complete_psr s npc
  rw [h]

@[simp] theorem complete_psr_de (s : State) (npc : Word) : (s.complete npc).psr.de = s.psr.de := by
  obtain ⟨_, _, h⟩ := complete_psr s npc
  rw [h]

@[simp] theorem complete_psr_sv (s : State) (npc : Word) : (s.complete npc).psr.sv = s.psr.sv := by
  obtain ⟨_, _, h⟩ := complete_psr s npc
  rw [h]

@[simp] theorem complete_psr_he (s : State) (npc : Word) : (s.complete npc).psr.he = s.psr.he := by
  obtain ⟨_, _, h⟩ := complete_psr s npc
  rw [h]

@[simp] theorem complete_psr_il (s : State) (npc : Word) : (s.complete npc).psr.il = s.psr.il := by
  obtain ⟨_, _, h⟩ := complete_psr s npc
  rw [h]

@[simp] theorem complete_psr_ie (s : State) (npc : Word) : (s.complete npc).psr.ie = s.psr.ie := by
  obtain ⟨_, _, h⟩ := complete_psr s npc
  rw [h]

theorem branch_eq (s : State) (d taken : Bool) (target : Word) :
    s.branch d taken target = .next
      (if d then s.completeDelayed (if taken then target else s.pc + 4)
       else if taken then s.discardPrefetch.complete target else s.complete (s.pc + 2)) := by
  unfold State.branch
  cases d <;> cases taken <;> rfl

/-! ## Accesses -/

/-- Translate looks at ME, SV and the parameters, and nothing else of the state. -/
theorem translate_congr {s t : State} (hm : s.psr.me = t.psr.me) (hs : s.psr.sv = t.psr.sv)
    (hp : s.params = t.params) (k : AccessKind) (a : Word) : s.translate k a = t.translate k a := by
  simp only [State.translate, hm, hs, hp]

@[simp] theorem translate_setReg (s : State) (n : Reg) (v : Word) (k : AccessKind) (a : Word) :
    (s.setReg n v).translate k a = s.translate k a := rfl

@[simp] theorem translate_noteStore (s : State) (z : Size) (p : Word) (k : AccessKind) (a : Word) :
    (s.noteStore z p).translate k a = s.translate k a := rfl

@[simp] theorem physRead_noteStore (s : State) (z w : Size) (p q : Word) :
    (s.noteStore z p).physRead w q = s.physRead w q := rfl

@[simp] theorem translate_physWrite (s : State) (z : Size) (p v : Word) (k : AccessKind) (a : Word) :
    (s.physWrite z p v).translate k a = s.translate k a := rfl

theorem load_eq {s : State} {a p : Word} (z : Size) (h : s.translate .read a = some p) :
    s.load z a = .ok (s.physRead z p) := by
  unfold State.load
  rw [h]

theorem load_miss {s : State} {a : Word} (z : Size) (h : s.translate .read a = none) :
    s.load z a = .error .miss := by
  unfold State.load
  rw [h]

/-- A read that gives a value read some physical address; the only other answer is a miss. -/
theorem load_cases (s : State) (z : Size) (a : Word) :
    (∃ p, s.translate .read a = some p ∧ s.load z a = .ok (s.physRead z p)) ∨
    (s.translate .read a = none ∧ s.load z a = .error .miss) := by
  cases h : s.translate .read a with
  | none => exact .inr ⟨rfl, load_miss z h⟩
  | some p => exact .inl ⟨p, rfl, load_eq z h⟩

theorem store_eq {s : State} {a p : Word} (z : Size) (v : Word) (h : s.translate .write a = some p) :
    s.store z a v = .ok ((s.noteStore z p).physWrite z p v) := by
  unfold State.store
  rw [h]

theorem store_miss {s : State} {a : Word} (z : Size) (v : Word) (h : s.translate .write a = none) :
    s.store z a v = .error .miss := by
  unfold State.store
  rw [h]

/-- A write that is performed wrote some physical address, and is remembered; the only other answer is a miss. -/
theorem store_cases (s : State) (z : Size) (a v : Word) :
    (∃ p, s.translate .write a = some p ∧ s.store z a v = .ok ((s.noteStore z p).physWrite z p v)) ∨
    (s.translate .write a = none ∧ s.store z a v = .error .miss) := by
  cases h : s.translate .write a with
  | none => exact .inr ⟨rfl, store_miss z v h⟩
  | some p => exact .inl ⟨p, rfl, store_eq z v h⟩

theorem memRead_aligned {s : State} {z : Size} {a : Word} (h : z.misaligned a = false) : s.memRead z a = s.load z a := by
  simp [State.memRead, h]

theorem memRead_misaligned {s : State} {z : Size} {a : Word} (h : z.misaligned a = true) :
    s.memRead z a = .error .misaligned := by
  simp [State.memRead, h]

theorem memWrite_aligned {s : State} {z : Size} {a : Word} (v : Word) (h : z.misaligned a = false) :
    s.memWrite z a v = s.store z a v := by
  simp [State.memWrite, h]

theorem memWrite_misaligned {s : State} {z : Size} {a : Word} (v : Word) (h : z.misaligned a = true) :
    s.memWrite z a v = .error .misaligned := by
  simp [State.memWrite, h]

/-- The alignment rule as arithmetic (20_memory.md R84). -/
theorem misaligned_iff (z : Size) (a : Word) : z.misaligned a = true ↔ a.toNat % z.bytes.toNat ≠ 0 := by
  have h0 : a.getLsbD 0 = decide (a.toNat % 2 = 1) := by
    rw [BitVec.getLsbD, Nat.testBit_eq_decide_div_mod_eq]
    simp
  have h1 : a.getLsbD 1 = decide (a.toNat / 2 % 2 = 1) := by
    rw [BitVec.getLsbD, Nat.testBit_eq_decide_div_mod_eq]
  cases z with
  | byte => simp [Size.misaligned, Size.bytes, Nat.mod_one]
  | half => simp only [Size.misaligned, Size.bytes, h0]; simp
  | word =>
    simp only [Size.misaligned, Size.bytes, h0, h1]
    simp
    omega

theorem pushWord_eq {s : State} {p : Word} (v : Word) (h : s.translate .write (s.sp - 4) = some p) :
    s.pushWord v = .ok (((s.noteStore .word p).physWrite .word p v).setSp (s.sp - 4)) := by
  unfold State.pushWord
  rw [store_eq _ _ h]

theorem pushWord_miss {s : State} (v : Word) (h : s.translate .write (s.sp - 4) = none) :
    s.pushWord v = .error .miss := by
  unfold State.pushWord
  rw [store_miss _ _ h]

theorem popWord_eq {s : State} {p : Word} (h : s.translate .read s.sp = some p) :
    s.popWord = .ok (s.physRead .word p, s.setSp (s.sp + 4)) := by
  unfold State.popWord
  rw [load_eq _ h]

theorem popWord_miss {s : State} (h : s.translate .read s.sp = none) : s.popWord = .error .miss := by
  unfold State.popWord
  rw [load_miss _ h]

/-! ## What happens when an access is not performed -/

theorem orAbort_ok {α : Type} (s : State) (a : α) (k : α → Result) : s.orAbort (.ok a) k = k a := rfl

theorem orAbort_error {α : Type} (s : State) (e : Abort) (k : α → Result) : s.orAbort (.error e) k = s.abort e := rfl

/-- An instruction continues with the value of its access or aborts. -/
theorem orAbort_next {α : Type} {s t : State} {x : Except Abort α} {k : α → Result} (h : s.orAbort x k = .next t) :
    (∃ a, x = .ok a ∧ k a = .next t) ∨ (∃ e, x = .error e ∧ s.abort e = .next t) := by
  cases x with
  | ok a => exact .inl ⟨a, rfl, h⟩
  | error e => exact .inr ⟨e, rfl, h⟩

/-- The restart address with fewer than seven prefixes (52_ext.md R534 b). -/
theorem restart_short {s : State} (h : s.ext.count < 7) : s.restart = (s.ext.start.getD s.pc, s) := by
  simp [State.restart, h]

/-- The restart address with seven or more: some halfword of the series (R534 d). -/
theorem restart_long {s : State} (h : ¬ s.ext.count < 7) :
    s.restart = (s.ext.start.getD s.pc + 2 * BitVec.ofNat 32 ((Config.freeWord s.free).toNat % s.ext.count),
      { s with free := s.free + 1 }) := by
  simp [State.restart, h, State.draw]

/-- Finding the restart address changes at most the count of free values used. -/
theorem restart_state (s : State) : s.restart.2 = s ∨ s.restart.2 = { s with free := s.free + 1 } := by
  by_cases h : s.ext.count < 7
  · rw [restart_short h]; exact .inl rfl
  · rw [restart_long h]; exact .inr rfl

theorem raise_handler {s : State} {c : Cause} {n : BitVec 8} {ret restart : Word}
    (h : s.psr.me = true ∨ s.psr.de = true) : s.raise c n ret restart = .fault (.exceptionInHandler c) := by
  unfold State.raise
  rw [if_pos (by simpa [Bool.or_eq_true] using h)]

theorem raise_trap {s : State} {c : Cause} {n : BitVec 8} {ret restart : Word} (hm : s.psr.me = false)
    (hd : s.psr.de = false) : s.raise c n ret restart = s.trap n none false ret restart := by
  unfold State.raise
  rw [if_neg (by simp [hm, hd])]

theorem raise_next {s t : State} {c : Cause} {n : BitVec 8} {ret restart : Word}
    (h : s.raise c n ret restart = .next t) :
    s.psr.me = false ∧ s.psr.de = false ∧ s.trap n none false ret restart = .next t := by
  cases hm : s.psr.me
  · cases hd : s.psr.de
    · rw [raise_trap hm hd] at h; exact ⟨rfl, rfl, h⟩
    · rw [raise_handler (.inr hd)] at h; cases h
  · rw [raise_handler (.inl hm)] at h; cases h

/-- What the MMU exception leaves (60_exceptions.md R590). -/
theorem mmuException_next {s t : State} {ret : Word} (h : s.mmuException ret = .next t) :
    s.psr.de = false ∧
    t = { (s.physWrite .word 0x18#32 ret).physWrite .word 0x1C#32 (s.reg 0#4) with
      psr := { s.psr with me := true }
      pc := evenAddress (((s.physWrite .word 0x18#32 ret).physWrite .word 0x1C#32 (s.reg 0#4)).physRead .word 0x10#32)
      ext := Ext.empty
      delay := none
      run := .running
      stores := [] } := by
  unfold State.mmuException at h
  split at h
  · cases h
  · rename_i hd
    cases h
    exact ⟨by simpa using hd, rfl⟩

/-- The MMU exception does not depend on the stores it makes visible. -/
theorem mmuException_stores (s : State) (l : List Word) (ret : Word) :
    ({ s with stores := l } : State).mmuException ret = s.mmuException ret := rfl

/-- Trap entry when its three accesses are mapped (60_exceptions.md R570). -/
theorem trap_mapped {s : State} {n : BitVec 8} {level : Option (BitVec 4)} {nmi : Bool} {ret restart p1 p2 p3 : Word}
    (h1 : s.translate .write (s.ssp - 4) = some p1) (h2 : s.translate .write (s.ssp - 8) = some p2)
    (h3 : ({ s with psr := { s.psr with sv := false } } : State).translate .read (s.vectorAddress n) = some p3) :
    s.trap n level nmi ret restart =
      .next { (s.physWrite .word p1 ret).physWrite .word p2 s.psr.toWord with
        ssp := s.ssp - 8
        psr := s.psr.atEntry level
        nmiInService := s.nmiInService || nmi
        ext := Ext.empty
        delay := none
        run := .running
        stores := []
        pc := evenAddress
          (((s.physWrite .word p1 ret).physWrite .word p2 s.psr.toWord).physRead .word p3) } := by
  unfold State.trap
  rw [store_eq _ _ h1]
  simp only
  rw [store_eq (s := (s.noteStore .word p1).physWrite .word p1 ret) _ _ h2]
  simp only
  rw [load_eq (p := p3) .word (by exact h3)]
  rfl

/-- A trap entry that gives a next state entered the handler, or one of its accesses missed. -/
theorem trap_next {s t : State} {n : BitVec 8} {level : Option (BitVec 4)} {nmi : Bool} {ret restart : Word}
    (h : s.trap n level nmi ret restart = .next t) :
    (∃ p1 p2 p3, s.translate .write (s.ssp - 4) = some p1 ∧ s.translate .write (s.ssp - 8) = some p2 ∧
      ({ s with psr := { s.psr with sv := false } } : State).translate .read (s.vectorAddress n) = some p3 ∧
      t = { (s.physWrite .word p1 ret).physWrite .word p2 s.psr.toWord with
        ssp := s.ssp - 8
        psr := s.psr.atEntry level
        nmiInService := s.nmiInService || nmi
        ext := Ext.empty
        delay := none
        run := .running
        stores := []
        pc := evenAddress
          (((s.physWrite .word p1 ret).physWrite .word p2 s.psr.toWord).physRead .word p3) }) ∨
    (∃ m : Memory, (m = s.mem ∨ (∃ p, m = (s.physWrite .word p ret).mem) ∨
        ∃ p q, m = ((s.physWrite .word p ret).physWrite .word q s.psr.toWord).mem) ∧
      ({ s with mem := m } : State).mmuException restart = .next t) := by
  cases h1 : s.translate .write (s.ssp - 4) with
  | none =>
    right
    unfold State.trap at h
    rw [store_miss _ _ h1] at h
    exact ⟨s.mem, .inl rfl, h⟩
  | some p1 =>
    cases h2 : s.translate .write (s.ssp - 8) with
    | none =>
      right
      unfold State.trap at h
      rw [store_eq _ _ h1] at h
      simp only at h
      rw [store_miss (s := (s.noteStore .word p1).physWrite .word p1 ret) _ _ h2] at h
      exact ⟨(s.physWrite .word p1 ret).mem, .inr (.inl ⟨p1, rfl⟩), (mmuException_stores
        { s with mem := (s.physWrite .word p1 ret).mem } (s.noteStore .word p1).stores restart).symm.trans h⟩
    | some p2 =>
      cases h3 : ({ s with psr := { s.psr with sv := false } } : State).translate .read (s.vectorAddress n) with
      | some p3 =>
        left
        rw [trap_mapped h1 h2 h3] at h
        cases h
        exact ⟨p1, p2, p3, rfl, rfl, rfl, rfl⟩
      | none =>
        right
        unfold State.trap at h
        rw [store_eq _ _ h1] at h
        simp only at h
        rw [store_eq (s := (s.noteStore .word p1).physWrite .word p1 ret) _ _ h2] at h
        simp only at h
        rw [load_miss .word (by exact h3)] at h
        exact ⟨((s.physWrite .word p1 ret).physWrite .word p2 s.psr.toWord).mem, .inr (.inr ⟨p1, p2, rfl⟩),
          (mmuException_stores { s with mem := ((s.physWrite .word p1 ret).physWrite .word p2 s.psr.toWord).mem }
            ((s.noteStore .word p1).noteStore .word p2).stores restart).symm.trans h⟩

/-- What an instruction leaves when one of its accesses is not performed: a trap, or the MMU exception, from the state before
it (60_exceptions.md R574, R590). -/
theorem abort_next {s t : State} {e : Abort} (h : s.abort e = .next t) :
    (e = .misaligned ∧ s.psr.me = false ∧ s.psr.de = false ∧
      s.restart.2.trap 6#8 none false s.restart.1 s.restart.1 = .next t) ∨
    (e = .miss ∧ s.restart.2.mmuException s.restart.1 = .next t) := by
  cases e with
  | miss => exact .inr ⟨rfl, h⟩
  | misaligned =>
    left
    obtain ⟨hm, hd, ht⟩ := raise_next (s := s.restart.2) h
    refine ⟨rfl, ?_, ?_, ht⟩
    · rcases restart_state s with h' | h' <;> rw [h'] at hm <;> exact hm
    · rcases restart_state s with h' | h' <;> rw [h'] at hd <;> exact hd

/-! ## The host's inputs -/

theorem poll_empty {s : State} (h : s.inputs = []) : s.poll = (HostInput.none, s) := by
  simp [State.poll, h]

theorem poll_cons {s : State} {i : HostInput} {rest : List HostInput} (h : s.inputs = i :: rest) :
    s.poll = (i, { s with inputs := rest }) := by
  simp [State.poll, h]

@[simp] theorem interrupt_none (s : State) (ret : Word) : s.interrupt HostInput.none ret = none := by
  simp [State.interrupt, HostInput.none]

@[simp] theorem accept_none (s : State) (ret : Word) : s.accept HostInput.none ret = none := by
  simp [State.accept, HostInput.none, State.interrupt]

@[simp] theorem boundaryEvent_none (s : State) : s.boundaryEvent HostInput.none = none := by
  simp [State.boundaryEvent]

/-- Nothing is accepted while prefixes are pending or a delayed branch waits (52_ext.md R521, R534 a; 48_branch.md R394). -/
theorem accept_pending {s : State} (h : s.ext.count ≠ 0 ∨ s.delay ≠ none) (i : HostInput) (ret : Word) :
    s.accept i ret = none := by
  simp only [State.accept, if_pos h]

/-- A boundary inside an instruction at which nothing is accepted: the input is used up and the instruction goes on. -/
theorem innerBoundary_none {s : State} {mark : State → State} {k : State → Result} (hr : s.poll.1.reset = none)
    (ha : (mark s.poll.2).accept s.poll.1 s.poll.2.pc = none) : s.innerBoundary mark k = k s.poll.2 := by
  simp only [State.innerBoundary, hr, ha]

/-- With nothing asserted a boundary inside an instruction changes nothing. -/
theorem innerBoundary_quiet {s : State} (h : s.inputs = []) (mark : State → State) (k : State → Result) :
    s.innerBoundary mark k = k s := by
  simp [State.innerBoundary, poll_empty h, HostInput.none, State.accept, State.interrupt]

/-- Nothing is accepted inside a handler (60_exceptions.md R592, R598). -/
theorem interrupt_handler {s : State} (h : s.psr.me = true ∨ s.psr.de = true) (i : HostInput) (ret : Word) :
    s.interrupt i ret = none := by
  unfold State.interrupt
  rw [if_pos (by simpa [Bool.or_eq_true] using h)]

/-- An accepted interrupt is a trap entry, outside handlers: vector 7, or an acceptable request's vector. -/
theorem interrupt_some {s : State} {i : HostInput} {ret : Word} {r : Result} (h : s.interrupt i ret = some r) :
    s.psr.me = false ∧ s.psr.de = false ∧
    ((i.nmi = true ∧ s.nmiMasked = false ∧ s.nmiInService = false ∧ r = s.trap 7#8 none true ret ret) ∨
      ∃ q, i.request = some q ∧ s.psr.accepts q = true ∧ r = s.trap q.vector (some q.level) false ret ret) := by
  unfold State.interrupt at h
  cases hm : s.psr.me <;> cases hd : s.psr.de <;> simp [hm, hd] at h
  refine ⟨rfl, rfl, ?_⟩
  by_cases hn : (i.nmi = true ∧ s.nmiMasked = false) ∧ s.nmiInService = false
  · rw [if_pos hn] at h
    exact .inl ⟨hn.1.1, hn.1.2, hn.2, (Option.some.inj h).symm⟩
  · rw [if_neg hn] at h
    right
    cases hq : i.request with
    | none => rw [hq] at h; cases h
    | some q =>
      rw [hq] at h
      simp only at h
      by_cases ha : s.psr.accepts q = true
      · rw [if_pos ha] at h
        exact ⟨q, rfl, ha, (Option.some.inj h).symm⟩
      · rw [if_neg ha] at h; cases h

/-- An accepted event is the debug exception or an accepted interrupt, with no prefix and no delayed branch pending. -/
theorem accept_some {s : State} {i : HostInput} {ret : Word} {r : Result} (h : s.accept i ret = some r) :
    s.ext.count = 0 ∧ s.delay = none ∧
    ((i.debugBreak = true ∧ s.psr.me = false ∧ s.psr.de = false ∧ r = .next (s.debugException ret)) ∨
      s.interrupt i ret = some r) := by
  unfold State.accept at h
  split at h
  · cases h
  · rename_i hp
    have hp' : s.ext.count = 0 ∧ s.delay = none := ⟨Classical.not_not.mp fun e => hp (.inl e),
      Classical.not_not.mp fun e => hp (.inr e)⟩
    refine ⟨hp'.1, hp'.2, ?_⟩
    split at h
    · rename_i hc
      simp [Bool.and_eq_true] at hc
      exact .inl ⟨hc.1.1, hc.1.2, hc.2, (Option.some.inj h).symm⟩
    · exact .inr h

/-- A boundary inside an instruction resets the core, takes an event, or goes on. -/
theorem innerBoundary_next {s t : State} {mark : State → State} {k : State → Result}
    (h : s.innerBoundary mark k = .next t) :
    (∃ kind, t = s.poll.2.beginReset kind) ∨
    (∃ r, (mark s.poll.2).accept s.poll.1 s.poll.2.pc = some r ∧ r = .next t) ∨ k s.poll.2 = .next t := by
  unfold State.innerBoundary at h
  simp only at h
  split at h
  · cases h; exact .inl ⟨_, rfl⟩
  · split at h
    · rename_i r hr; exact .inr (.inl ⟨r, hr, h⟩)
    · exact .inr (.inr h)

/-! ## Returns -/

/-- `reti` with both words mapped (60_exceptions.md R580). -/
theorem returnFromTrap_eq {s : State} {p1 p2 : Word} (h1 : s.translate .read (s.ssp + 4) = some p1)
    (h2 : s.translate .read s.ssp = some p2) :
    s.returnFromTrap = .ok ({ s.writePsr (s.physRead .word p2) with
      ssp := s.ssp + 8, nmiInService := false, stores := [] }, evenAddress (s.physRead .word p1)) := by
  unfold State.returnFromTrap
  rw [load_eq _ h1, load_eq _ h2]

/-! ## The step -/

/-- The fetched code when the pc is mapped (20_memory.md R87). -/
theorem fetch_eq {s : State} {p : Word} (h : s.translate .fetch s.pc = some p) :
    s.fetch = .ok (codeOfBytes s.params.bigEndian (s.byteAt p) (s.byteAt (p + 1))) := by
  unfold State.fetch
  rw [h]

/-- The fetch is recorded when the pc is mapped (20_memory.md R104). -/
theorem fetched_eq {s : State} {p : Word} (h : s.translate .fetch s.pc = some p) : s.fetched = s.noteFetch p := by
  unfold State.fetched
  rw [h]

/-- Everything a step can do: reset, release from reset, idling, taking what the boundary accepts, or running the
instruction at the pc. -/
theorem step_next {s t : State} (h : step s = .next t) :
    (∃ kind, s.poll.1.reset = some kind ∧ t = s.poll.2.beginReset kind) ∨
    (s.run = .reset ∧ s.poll.2.endReset = .next t) ∨
    ((s.run = .halt ∨ s.run = .sleep) ∧ s.poll.2.idle s.poll.1 = .next t) ∨
    (s.run = .running ∧ s.poll.2.boundaryEvent s.poll.1 = some (.next t)) ∨
    (s.run = .running ∧ s.poll.2.boundaryEvent s.poll.1 = none ∧ s.poll.2.runInstruction = .next t) := by
  have hr : s.poll.2.run = s.run := by unfold State.poll; split <;> rfl
  unfold step at h
  simp only at h
  split at h
  · rename_i kind hk; cases h; exact .inl ⟨kind, hk, rfl⟩
  · right
    rw [hr] at h
    cases hrun : s.run <;> rw [hrun] at h <;> simp only at h
    · split at h
      · rename_i r he; subst h; exact .inr (.inr (.inl ⟨rfl, he⟩))
      · rename_i he; exact .inr (.inr (.inr ⟨rfl, he, h⟩))
    · exact .inr (.inl ⟨.inl rfl, h⟩)
    · exact .inr (.inl ⟨.inr rfl, h⟩)
    · exact .inl ⟨rfl, h⟩

/-- An instruction that runs in a step was fetched and decoded, or the fetch missed. -/
theorem runInstruction_next {s t : State} (h : s.runInstruction = .next t) :
    (∃ w i, s.fetch = .ok w ∧ decodeHalf w = some i ∧ exec i s.fetched = .next t) ∨
    (s.fetch = .error .miss ∧ s.mmuException s.pc = .next t) := by
  unfold State.runInstruction at h
  split at h
  · rename_i e he
    cases e with
    | miss => exact .inr ⟨he, h⟩
    | misaligned => unfold State.fetch at he; split at he <;> cases he
  · rename_i w hw
    split at h
    · rename_i i hi; exact .inl ⟨w, i, hw, hi, h⟩
    · cases h

end Sys2Proof.Machine
end

