-- ==== Sys2Proof/Laws/PerInstr.lean ====
section
/-! SUPPORT. One lemma for each instruction: the decoder reads its code back. First, what each field of a code reads from
each layout of 30_encoding.md R122 to R125. -/

namespace Sys2Proof.Laws

/-- The decoder reads an encoded well-formed instruction back. -/
def RoundTrip.Statement (i : Instr) : Prop := i.WellFormed → decodeHalf (encodeHalf i) = some i

/-! ## The class of a code -/

theorem decodeHalf_class0 {w : Half} (h : w.extractLsb' 13 3 = 0#3) : decodeHalf w = decodeClass0 w := by
  simp only [decodeHalf, h]
theorem decodeHalf_class1 {w : Half} (h : w.extractLsb' 13 3 = 1#3) : decodeHalf w = decodeClass1 w := by
  simp only [decodeHalf, h]
theorem decodeHalf_class2 {w : Half} (h : w.extractLsb' 13 3 = 2#3) : decodeHalf w = decodeClass2 w := by
  simp only [decodeHalf, h]
theorem decodeHalf_class3 {w : Half} (h : w.extractLsb' 13 3 = 3#3) : decodeHalf w = decodeClass3 w := by
  simp only [decodeHalf, h]
theorem decodeHalf_class4 {w : Half} (h : w.extractLsb' 13 3 = 4#3) : decodeHalf w = decodeClass4 w := by
  simp only [decodeHalf, h]
theorem decodeHalf_class5 {w : Half} (h : w.extractLsb' 13 3 = 5#3) : decodeHalf w = decodeClass5 w := by
  simp only [decodeHalf, h]
theorem decodeHalf_class7 {w : Half} (h : w.extractLsb' 13 3 = 7#3) : decodeHalf w = decodeClass7 w := by
  simp only [decodeHalf, h]

/-! ## The fields of each layout -/

theorem code12_class (h : BitVec 12) (r : BitVec 4) : (h ++ r).extractLsb' 13 3 = h.extractLsb' 9 3 := by
  simp (disch := decide) only [BitVec.extractLsb'_append_eq_of_le]
theorem code12_branch (h : BitVec 12) (r : BitVec 4) : (h ++ r).extractLsb' 9 4 = h.extractLsb' 5 4 := by
  simp (disch := decide) only [BitVec.extractLsb'_append_eq_of_le]
theorem code12_head (h : BitVec 12) (r : BitVec 4) : (h ++ r).extractLsb' 4 12 = h := by
  simp (disch := decide) only [BitVec.extractLsb'_append_eq_of_le]; simp
theorem code12_y (h : BitVec 12) (r : BitVec 4) : fieldY (h ++ r) = r := by
  unfold fieldY; simp (disch := decide) only [BitVec.extractLsb'_append_eq_of_add_le]; simp
theorem code88_class (h b : BitVec 8) : (h ++ b).extractLsb' 13 3 = h.extractLsb' 5 3 := by
  simp (disch := decide) only [BitVec.extractLsb'_append_eq_of_le]
theorem code88_branch (h b : BitVec 8) : (h ++ b).extractLsb' 9 4 = h.extractLsb' 1 4 := by
  simp (disch := decide) only [BitVec.extractLsb'_append_eq_of_le]
theorem code88_d (h b : BitVec 8) : fieldD (h ++ b) = h.getLsbD 0 := by
  simp only [fieldD, BitVec.getLsbD_append]; rfl
theorem code88_low (h b : BitVec 8) : (h ++ b).extractLsb' 0 8 = b := by
  simp (disch := decide) only [BitVec.extractLsb'_append_eq_of_add_le]; simp
theorem code844_class (h : BitVec 8) (x y : BitVec 4) : (h ++ x ++ y).extractLsb' 13 3 = h.extractLsb' 5 3 := by
  simp (disch := decide) only [BitVec.extractLsb'_append_eq_of_le]
theorem code844_op1 (h : BitVec 8) (x y : BitVec 4) : fieldOp1 (h ++ x ++ y) = h.extractLsb' 2 3 := by
  unfold fieldOp1; simp (disch := decide) only [BitVec.extractLsb'_append_eq_of_le]
theorem code844_high (h : BitVec 8) (x y : BitVec 4) : fieldHigh (h ++ x ++ y) = h := by
  unfold fieldHigh; simp (disch := decide) only [BitVec.extractLsb'_append_eq_of_le]; simp
theorem code844_x (h : BitVec 8) (x y : BitVec 4) : fieldX (h ++ x ++ y) = x := by
  unfold fieldX; simp (disch := decide) only [BitVec.extractLsb'_append_eq_of_le, BitVec.extractLsb'_append_eq_of_add_le]; simp
theorem code844_y (h : BitVec 8) (x y : BitVec 4) : fieldY (h ++ x ++ y) = y := by
  unfold fieldY; simp (disch := decide) only [BitVec.extractLsb'_append_eq_of_add_le]; simp
theorem code8413_class (h : BitVec 8) (x : BitVec 4) (o : BitVec 1) (i : BitVec 3) : (h ++ x ++ o ++ i).extractLsb' 13 3 = h.extractLsb' 5 3 := by
  simp (disch := decide) only [BitVec.extractLsb'_append_eq_of_le]
theorem code8413_high (h : BitVec 8) (x : BitVec 4) (o : BitVec 1) (i : BitVec 3) : fieldHigh (h ++ x ++ o ++ i) = h := by
  unfold fieldHigh; simp (disch := decide) only [BitVec.extractLsb'_append_eq_of_le]; simp
theorem code8413_x (h : BitVec 8) (x : BitVec 4) (o : BitVec 1) (i : BitVec 3) : fieldX (h ++ x ++ o ++ i) = x := by
  unfold fieldX; simp (disch := decide) only [BitVec.extractLsb'_append_eq_of_le, BitVec.extractLsb'_append_eq_of_add_le]; simp
theorem code8422_class (h : BitVec 8) (x : BitVec 4) (o i : BitVec 2) : (h ++ x ++ o ++ i).extractLsb' 13 3 = h.extractLsb' 5 3 := by
  simp (disch := decide) only [BitVec.extractLsb'_append_eq_of_le]
theorem code8422_high (h : BitVec 8) (x : BitVec 4) (o i : BitVec 2) : fieldHigh (h ++ x ++ o ++ i) = h := by
  unfold fieldHigh; simp (disch := decide) only [BitVec.extractLsb'_append_eq_of_le]; simp
theorem code8422_x (h : BitVec 8) (x : BitVec 4) (o i : BitVec 2) : fieldX (h ++ x ++ o ++ i) = x := by
  unfold fieldX; simp (disch := decide) only [BitVec.extractLsb'_append_eq_of_le, BitVec.extractLsb'_append_eq_of_add_le]; simp
theorem code8413_y (h : BitVec 8) (x : BitVec 4) (o : BitVec 1) (i : BitVec 3) : fieldY (h ++ x ++ o ++ i) = o ++ i := by
  apply BitVec.eq_of_getLsbD_eq; intro k hk
  simp only [fieldY, BitVec.getLsbD_extractLsb', BitVec.getLsbD_append, hk, decide_true, Bool.true_and, Nat.zero_add]
  split
  · rfl
  · rw [if_pos (by omega)]
theorem code8422_y (h : BitVec 8) (x : BitVec 4) (o i : BitVec 2) : fieldY (h ++ x ++ o ++ i) = o ++ i := by
  apply BitVec.eq_of_getLsbD_eq; intro k hk
  simp only [fieldY, BitVec.getLsbD_extractLsb', BitVec.getLsbD_append, hk, decide_true, Bool.true_and, Nat.zero_add]
  split
  · rfl
  · rw [if_pos (by omega)]
theorem code664_class (h i : BitVec 6) (r : BitVec 4) : (h ++ i ++ r).extractLsb' 13 3 = h.extractLsb' 3 3 := by
  simp (disch := decide) only [BitVec.extractLsb'_append_eq_of_le]
theorem code664_op1 (h i : BitVec 6) (r : BitVec 4) : fieldOp1 (h ++ i ++ r) = h.extractLsb' 0 3 := by
  unfold fieldOp1; simp (disch := decide) only [BitVec.extractLsb'_append_eq_of_le]
theorem code664_imm6 (h i : BitVec 6) (r : BitVec 4) : fieldImm6 (h ++ i ++ r) = i := by
  unfold fieldImm6; simp (disch := decide) only [BitVec.extractLsb'_append_eq_of_le, BitVec.extractLsb'_append_eq_of_add_le]; simp
theorem code664_y (h i : BitVec 6) (r : BitVec 4) : fieldY (h ++ i ++ r) = r := by
  unfold fieldY; simp (disch := decide) only [BitVec.extractLsb'_append_eq_of_add_le]; simp
theorem code610_class (h : BitVec 6) (i : BitVec 10) : (h ++ i).extractLsb' 13 3 = h.extractLsb' 3 3 := by
  simp (disch := decide) only [BitVec.extractLsb'_append_eq_of_le]
theorem code610_op1 (h : BitVec 6) (i : BitVec 10) : fieldOp1 (h ++ i) = h.extractLsb' 0 3 := by
  unfold fieldOp1; simp (disch := decide) only [BitVec.extractLsb'_append_eq_of_le]
theorem code610_low (h : BitVec 6) (i : BitVec 10) : (h ++ i).extractLsb' 0 10 = i := by
  simp (disch := decide) only [BitVec.extractLsb'_append_eq_of_add_le]; simp
theorem code106_class (h : BitVec 10) (i : BitVec 6) : (h ++ i).extractLsb' 13 3 = h.extractLsb' 7 3 := by
  simp (disch := decide) only [BitVec.extractLsb'_append_eq_of_le]
theorem code106_high (h : BitVec 10) (i : BitVec 6) : fieldHigh (h ++ i) = h.extractLsb' 2 8 := by
  unfold fieldHigh; simp (disch := decide) only [BitVec.extractLsb'_append_eq_of_le]
theorem code106_group (h : BitVec 10) (i : BitVec 6) : (h ++ i).extractLsb' 6 2 = h.extractLsb' 0 2 := by
  simp (disch := decide) only [BitVec.extractLsb'_append_eq_of_le]
theorem code106_low (h : BitVec 10) (i : BitVec 6) : (h ++ i).extractLsb' 0 6 = i := by
  simp (disch := decide) only [BitVec.extractLsb'_append_eq_of_add_le]; simp
theorem code115_class (h : BitVec 11) (i : BitVec 5) : (h ++ i).extractLsb' 13 3 = h.extractLsb' 8 3 := by
  simp (disch := decide) only [BitVec.extractLsb'_append_eq_of_le]
theorem code115_high (h : BitVec 11) (i : BitVec 5) : fieldHigh (h ++ i) = h.extractLsb' 3 8 := by
  unfold fieldHigh; simp (disch := decide) only [BitVec.extractLsb'_append_eq_of_le]
theorem code115_group (h : BitVec 11) (i : BitVec 5) : (h ++ i).extractLsb' 6 2 = h.extractLsb' 1 2 := by
  simp (disch := decide) only [BitVec.extractLsb'_append_eq_of_le]
theorem code115_five (h : BitVec 11) (i : BitVec 5) : (h ++ i).getLsbD 5 = h.getLsbD 0 := by
  simp only [BitVec.getLsbD_append]; rfl
theorem code115_low (h : BitVec 11) (i : BitVec 5) : (h ++ i).extractLsb' 0 5 = i := by
  simp (disch := decide) only [BitVec.extractLsb'_append_eq_of_add_le]; simp
theorem code313_class (h : BitVec 3) (i : BitVec 13) : (h ++ i).extractLsb' 13 3 = h := by
  simp (disch := decide) only [BitVec.extractLsb'_append_eq_of_le]; simp
theorem code313_low (h : BitVec 3) (i : BitVec 13) : (h ++ i).extractLsb' 0 13 = i := by
  simp (disch := decide) only [BitVec.extractLsb'_append_eq_of_add_le]; simp

/-- A count from 16 to 31 is a 1 and its four low bits (30_encoding.md R124). -/
theorem high_count : ∀ i : BitVec 5, 16 ≤ i.toNat → (1#1 ++ i.extractLsb' 0 4 : BitVec 5) = i := by decide

/-- A count from 0 to 15 is a 0 and its four low bits (30_encoding.md R124). -/
theorem low_count : ∀ i : BitVec 5, i.toNat < 16 → (0#1 ++ i.extractLsb' 0 4 : BitVec 5) = i := by decide

theorem imm2_cases : ∀ i : BitVec 2, i = 0#2 ∨ i = 1#2 ∨ i = 2#2 ∨ i = 3#2 := by decide

/-- The bit number of a bit operation, below a 0 (46_bitop.md R364). -/
theorem bitField (i : BitVec 3) (f : BitVec 3 → Instr) :
    (if (0b0#1 ++ i : BitVec 4).getLsbD 3 then none else some (f ((0b0#1 ++ i : BitVec 4).extractLsb' 0 3))) =
      some (f i) := by
  rw [show (0b0#1 ++ i : BitVec 4).getLsbD 3 = false by simp only [BitVec.getLsbD_append]; rfl,
    BitVec.extractLsb'_append_eq_of_add_le (by decide), BitVec.extractLsb'_eq_self]
  rfl

/-! ## The instructions -/

namespace RoundTrip

theorem nop : Statement (.nop) := fun _ => rfl
theorem slp : Statement (.slp) := fun _ => rfl
theorem halt : Statement (.halt) := fun _ => rfl
theorem pushn (rs : Reg) : Statement (.pushn rs) := fun _ => by
  show decodeHalf (0b000000100000#12 ++ rs) = _
  rw [decodeHalf_class0 (by rw [code12_class]; rfl)]
  unfold decodeClass0
  rw [code12_branch]
  show decodeClass0Low (0b000000100000#12 ++ rs) = _
  unfold decodeClass0Low
  rw [code12_head, code12_y]
  rfl
theorem popn (rd : Reg) : Statement (.popn rd) := fun _ => by
  show decodeHalf (0b000000100100#12 ++ rd) = _
  rw [decodeHalf_class0 (by rw [code12_class]; rfl)]
  unfold decodeClass0
  rw [code12_branch]
  show decodeClass0Low (0b000000100100#12 ++ rd) = _
  unfold decodeClass0Low
  rw [code12_head, code12_y]
  rfl
theorem jpr (d : Bool) (rb : Reg) : Statement (.jpr d rb) := fun _ => by
  cases d
  · show decodeHalf (0b000000101100#12 ++ rb) = _
    rw [decodeHalf_class0 (by rw [code12_class]; rfl)]
    unfold decodeClass0
    rw [code12_branch]
    show decodeClass0Low (0b000000101100#12 ++ rb) = _
    unfold decodeClass0Low
    rw [code12_head, code12_y]
    rfl
  · show decodeHalf (0b000000111100#12 ++ rb) = _
    rw [decodeHalf_class0 (by rw [code12_class]; rfl)]
    unfold decodeClass0
    rw [code12_branch]
    show decodeClass0Low (0b000000111100#12 ++ rb) = _
    unfold decodeClass0Low
    rw [code12_head, code12_y]
    rfl
theorem brk : Statement (.brk) := fun _ => rfl
theorem retd : Statement (.retd) := fun _ => rfl
theorem int (imm2 : BitVec 2) : Statement (.int imm2) := by
  revert imm2; unfold Statement; decide
theorem reti : Statement (.reti) := fun _ => rfl
theorem callReg (d : Bool) (rb : Reg) : Statement (.callReg d rb) := fun _ => by
  cases d
  · show decodeHalf (0b000001100000#12 ++ rb) = _
    rw [decodeHalf_class0 (by rw [code12_class]; rfl)]
    unfold decodeClass0
    rw [code12_branch]
    show decodeClass0Low (0b000001100000#12 ++ rb) = _
    unfold decodeClass0Low
    rw [code12_head, code12_y]
    rfl
  · show decodeHalf (0b000001110000#12 ++ rb) = _
    rw [decodeHalf_class0 (by rw [code12_class]; rfl)]
    unfold decodeClass0
    rw [code12_branch]
    show decodeClass0Low (0b000001110000#12 ++ rb) = _
    unfold decodeClass0Low
    rw [code12_head, code12_y]
    rfl
theorem ret (d : Bool) : Statement (.ret d) := fun _ => by
  cases d <;> rfl
theorem jpReg (d : Bool) (rb : Reg) : Statement (.jpReg d rb) := fun _ => by
  cases d
  · show decodeHalf (0b000001101000#12 ++ rb) = _
    rw [decodeHalf_class0 (by rw [code12_class]; rfl)]
    unfold decodeClass0
    rw [code12_branch]
    show decodeClass0Low (0b000001101000#12 ++ rb) = _
    unfold decodeClass0Low
    rw [code12_head, code12_y]
    rfl
  · show decodeHalf (0b000001111000#12 ++ rb) = _
    rw [decodeHalf_class0 (by rw [code12_class]; rfl)]
    unfold decodeClass0
    rw [code12_branch]
    show decodeClass0Low (0b000001111000#12 ++ rb) = _
    unfold decodeClass0Low
    rw [code12_head, code12_y]
    rfl
theorem retm : Statement (.retm) := fun _ => rfl
theorem push (rs : Reg) : Statement (.push rs) := fun _ => by
  show decodeHalf (0b000000000001#12 ++ rs) = _
  rw [decodeHalf_class0 (by rw [code12_class]; rfl)]
  unfold decodeClass0
  rw [code12_branch]
  show decodeClass0Low (0b000000000001#12 ++ rs) = _
  unfold decodeClass0Low
  rw [code12_head, code12_y]
  rfl
theorem pop (rd : Reg) : Statement (.pop rd) := fun _ => by
  show decodeHalf (0b000000000101#12 ++ rd) = _
  rw [decodeHalf_class0 (by rw [code12_class]; rfl)]
  unfold decodeClass0
  rw [code12_branch]
  show decodeClass0Low (0b000000000101#12 ++ rd) = _
  unfold decodeClass0Low
  rw [code12_head, code12_y]
  rfl
theorem pushs (ss : SReg) : Statement (.pushs ss) := fun _ => by
  show decodeHalf (0b000000001001#12 ++ ss) = _
  rw [decodeHalf_class0 (by rw [code12_class]; rfl)]
  unfold decodeClass0
  rw [code12_branch]
  show decodeClass0Low (0b000000001001#12 ++ ss) = _
  unfold decodeClass0Low
  rw [code12_head, code12_y]
  rfl
theorem pops (sd : SReg) : Statement (.pops sd) := fun _ => by
  show decodeHalf (0b000000001101#12 ++ sd) = _
  rw [decodeHalf_class0 (by rw [code12_class]; rfl)]
  unfold decodeClass0
  rw [code12_branch]
  show decodeClass0Low (0b000000001101#12 ++ sd) = _
  unfold decodeClass0Low
  rw [code12_head, code12_y]
  rfl
theorem macW (rs : Reg) : Statement (.macW rs) := fun _ => by
  show decodeHalf (0b000000010001#12 ++ rs) = _
  rw [decodeHalf_class0 (by rw [code12_class]; rfl)]
  unfold decodeClass0
  rw [code12_branch]
  show decodeClass0Low (0b000000010001#12 ++ rs) = _
  unfold decodeClass0Low
  rw [code12_head, code12_y]
  rfl
theorem macHw (rs : Reg) : Statement (.macHw rs) := fun _ => by
  show decodeHalf (0b000000010101#12 ++ rs) = _
  rw [decodeHalf_class0 (by rw [code12_class]; rfl)]
  unfold decodeClass0
  rw [code12_branch]
  show decodeClass0Low (0b000000010101#12 ++ rs) = _
  unfold decodeClass0Low
  rw [code12_head, code12_y]
  rfl
theorem macclr : Statement (.macclr) := fun _ => rfl
theorem ldCf : Statement (.ldCf) := fun _ => rfl
theorem divuW (rs : Reg) : Statement (.divuW rs) := fun _ => by
  show decodeHalf (0b000000100001#12 ++ rs) = _
  rw [decodeHalf_class0 (by rw [code12_class]; rfl)]
  unfold decodeClass0
  rw [code12_branch]
  show decodeClass0Low (0b000000100001#12 ++ rs) = _
  unfold decodeClass0Low
  rw [code12_head, code12_y]
  rfl
theorem divW (rs : Reg) : Statement (.divW rs) := fun _ => by
  show decodeHalf (0b000000100101#12 ++ rs) = _
  rw [decodeHalf_class0 (by rw [code12_class]; rfl)]
  unfold decodeClass0
  rw [code12_branch]
  show decodeClass0Low (0b000000100101#12 ++ rs) = _
  unfold decodeClass0Low
  rw [code12_head, code12_y]
  rfl
theorem repeatReg (rc : Reg) : Statement (.repeatReg rc) := fun _ => by
  show decodeHalf (0b000000101001#12 ++ rc) = _
  rw [decodeHalf_class0 (by rw [code12_class]; rfl)]
  unfold decodeClass0
  rw [code12_branch]
  show decodeClass0Low (0b000000101001#12 ++ rc) = _
  unfold decodeClass0Low
  rw [code12_head, code12_y]
  rfl
theorem repeatImm (imm4 : BitVec 4) : Statement (.repeatImm imm4) := fun _ => by
  show decodeHalf (0b000000101101#12 ++ imm4) = _
  rw [decodeHalf_class0 (by rw [code12_class]; rfl)]
  unfold decodeClass0
  rw [code12_branch]
  show decodeClass0Low (0b000000101101#12 ++ imm4) = _
  unfold decodeClass0Low
  rw [code12_head, code12_y]
  rfl
theorem addDp (rd : Reg) : Statement (.addDp rd) := fun _ => by
  show decodeHalf (0b000000110101#12 ++ rd) = _
  rw [decodeHalf_class0 (by rw [code12_class]; rfl)]
  unfold decodeClass0
  rw [code12_branch]
  show decodeClass0Low (0b000000110101#12 ++ rd) = _
  unfold decodeClass0Low
  rw [code12_head, code12_y]
  rfl
theorem jrgt (d : Bool) (sign8 : BitVec 8) : Statement (.jrgt d sign8) := fun _ => by
  cases d
  · show decodeHalf (0b00001000#8 ++ sign8) = _
    rw [decodeHalf_class0 (by rw [code88_class]; rfl)]
    unfold decodeClass0
    rw [code88_branch, code88_d, code88_low]
    rfl
  · show decodeHalf (0b00001001#8 ++ sign8) = _
    rw [decodeHalf_class0 (by rw [code88_class]; rfl)]
    unfold decodeClass0
    rw [code88_branch, code88_d, code88_low]
    rfl
theorem jrge (d : Bool) (sign8 : BitVec 8) : Statement (.jrge d sign8) := fun _ => by
  cases d
  · show decodeHalf (0b00001010#8 ++ sign8) = _
    rw [decodeHalf_class0 (by rw [code88_class]; rfl)]
    unfold decodeClass0
    rw [code88_branch, code88_d, code88_low]
    rfl
  · show decodeHalf (0b00001011#8 ++ sign8) = _
    rw [decodeHalf_class0 (by rw [code88_class]; rfl)]
    unfold decodeClass0
    rw [code88_branch, code88_d, code88_low]
    rfl
theorem jrlt (d : Bool) (sign8 : BitVec 8) : Statement (.jrlt d sign8) := fun _ => by
  cases d
  · show decodeHalf (0b00001100#8 ++ sign8) = _
    rw [decodeHalf_class0 (by rw [code88_class]; rfl)]
    unfold decodeClass0
    rw [code88_branch, code88_d, code88_low]
    rfl
  · show decodeHalf (0b00001101#8 ++ sign8) = _
    rw [decodeHalf_class0 (by rw [code88_class]; rfl)]
    unfold decodeClass0
    rw [code88_branch, code88_d, code88_low]
    rfl
theorem jrle (d : Bool) (sign8 : BitVec 8) : Statement (.jrle d sign8) := fun _ => by
  cases d
  · show decodeHalf (0b00001110#8 ++ sign8) = _
    rw [decodeHalf_class0 (by rw [code88_class]; rfl)]
    unfold decodeClass0
    rw [code88_branch, code88_d, code88_low]
    rfl
  · show decodeHalf (0b00001111#8 ++ sign8) = _
    rw [decodeHalf_class0 (by rw [code88_class]; rfl)]
    unfold decodeClass0
    rw [code88_branch, code88_d, code88_low]
    rfl
theorem jrugt (d : Bool) (sign8 : BitVec 8) : Statement (.jrugt d sign8) := fun _ => by
  cases d
  · show decodeHalf (0b00010000#8 ++ sign8) = _
    rw [decodeHalf_class0 (by rw [code88_class]; rfl)]
    unfold decodeClass0
    rw [code88_branch, code88_d, code88_low]
    rfl
  · show decodeHalf (0b00010001#8 ++ sign8) = _
    rw [decodeHalf_class0 (by rw [code88_class]; rfl)]
    unfold decodeClass0
    rw [code88_branch, code88_d, code88_low]
    rfl
theorem jruge (d : Bool) (sign8 : BitVec 8) : Statement (.jruge d sign8) := fun _ => by
  cases d
  · show decodeHalf (0b00010010#8 ++ sign8) = _
    rw [decodeHalf_class0 (by rw [code88_class]; rfl)]
    unfold decodeClass0
    rw [code88_branch, code88_d, code88_low]
    rfl
  · show decodeHalf (0b00010011#8 ++ sign8) = _
    rw [decodeHalf_class0 (by rw [code88_class]; rfl)]
    unfold decodeClass0
    rw [code88_branch, code88_d, code88_low]
    rfl
theorem jrult (d : Bool) (sign8 : BitVec 8) : Statement (.jrult d sign8) := fun _ => by
  cases d
  · show decodeHalf (0b00010100#8 ++ sign8) = _
    rw [decodeHalf_class0 (by rw [code88_class]; rfl)]
    unfold decodeClass0
    rw [code88_branch, code88_d, code88_low]
    rfl
  · show decodeHalf (0b00010101#8 ++ sign8) = _
    rw [decodeHalf_class0 (by rw [code88_class]; rfl)]
    unfold decodeClass0
    rw [code88_branch, code88_d, code88_low]
    rfl
theorem jrule (d : Bool) (sign8 : BitVec 8) : Statement (.jrule d sign8) := fun _ => by
  cases d
  · show decodeHalf (0b00010110#8 ++ sign8) = _
    rw [decodeHalf_class0 (by rw [code88_class]; rfl)]
    unfold decodeClass0
    rw [code88_branch, code88_d, code88_low]
    rfl
  · show decodeHalf (0b00010111#8 ++ sign8) = _
    rw [decodeHalf_class0 (by rw [code88_class]; rfl)]
    unfold decodeClass0
    rw [code88_branch, code88_d, code88_low]
    rfl
theorem jreq (d : Bool) (sign8 : BitVec 8) : Statement (.jreq d sign8) := fun _ => by
  cases d
  · show decodeHalf (0b00011000#8 ++ sign8) = _
    rw [decodeHalf_class0 (by rw [code88_class]; rfl)]
    unfold decodeClass0
    rw [code88_branch, code88_d, code88_low]
    rfl
  · show decodeHalf (0b00011001#8 ++ sign8) = _
    rw [decodeHalf_class0 (by rw [code88_class]; rfl)]
    unfold decodeClass0
    rw [code88_branch, code88_d, code88_low]
    rfl
theorem jrne (d : Bool) (sign8 : BitVec 8) : Statement (.jrne d sign8) := fun _ => by
  cases d
  · show decodeHalf (0b00011010#8 ++ sign8) = _
    rw [decodeHalf_class0 (by rw [code88_class]; rfl)]
    unfold decodeClass0
    rw [code88_branch, code88_d, code88_low]
    rfl
  · show decodeHalf (0b00011011#8 ++ sign8) = _
    rw [decodeHalf_class0 (by rw [code88_class]; rfl)]
    unfold decodeClass0
    rw [code88_branch, code88_d, code88_low]
    rfl
theorem callRel (d : Bool) (sign8 : BitVec 8) : Statement (.callRel d sign8) := fun _ => by
  cases d
  · show decodeHalf (0b00011100#8 ++ sign8) = _
    rw [decodeHalf_class0 (by rw [code88_class]; rfl)]
    unfold decodeClass0
    rw [code88_branch, code88_d, code88_low]
    rfl
  · show decodeHalf (0b00011101#8 ++ sign8) = _
    rw [decodeHalf_class0 (by rw [code88_class]; rfl)]
    unfold decodeClass0
    rw [code88_branch, code88_d, code88_low]
    rfl
theorem jpRel (d : Bool) (sign8 : BitVec 8) : Statement (.jpRel d sign8) := fun _ => by
  cases d
  · show decodeHalf (0b00011110#8 ++ sign8) = _
    rw [decodeHalf_class0 (by rw [code88_class]; rfl)]
    unfold decodeClass0
    rw [code88_branch, code88_d, code88_low]
    rfl
  · show decodeHalf (0b00011111#8 ++ sign8) = _
    rw [decodeHalf_class0 (by rw [code88_class]; rfl)]
    unfold decodeClass0
    rw [code88_branch, code88_d, code88_low]
    rfl
theorem ldbInd (rd : Reg) (rb : Reg) : Statement (.ldbInd rd rb) := fun _ => by
  show decodeHalf (0b00100000#8 ++ rb ++ rd) = _
  rw [decodeHalf_class1 (by rw [code844_class]; rfl)]
  unfold decodeClass1
  rw [code844_high, code844_x, code844_y]
  rfl
theorem ldbInc (rd : Reg) (rb : Reg) : Statement (.ldbInc rd rb) := fun _ => by
  show decodeHalf (0b00100001#8 ++ rb ++ rd) = _
  rw [decodeHalf_class1 (by rw [code844_class]; rfl)]
  unfold decodeClass1
  rw [code844_high, code844_x, code844_y]
  rfl
theorem ldubInd (rd : Reg) (rb : Reg) : Statement (.ldubInd rd rb) := fun _ => by
  show decodeHalf (0b00100100#8 ++ rb ++ rd) = _
  rw [decodeHalf_class1 (by rw [code844_class]; rfl)]
  unfold decodeClass1
  rw [code844_high, code844_x, code844_y]
  rfl
theorem ldubInc (rd : Reg) (rb : Reg) : Statement (.ldubInc rd rb) := fun _ => by
  show decodeHalf (0b00100101#8 ++ rb ++ rd) = _
  rw [decodeHalf_class1 (by rw [code844_class]; rfl)]
  unfold decodeClass1
  rw [code844_high, code844_x, code844_y]
  rfl
theorem ldhInd (rd : Reg) (rb : Reg) : Statement (.ldhInd rd rb) := fun _ => by
  show decodeHalf (0b00101000#8 ++ rb ++ rd) = _
  rw [decodeHalf_class1 (by rw [code844_class]; rfl)]
  unfold decodeClass1
  rw [code844_high, code844_x, code844_y]
  rfl
theorem ldhInc (rd : Reg) (rb : Reg) : Statement (.ldhInc rd rb) := fun _ => by
  show decodeHalf (0b00101001#8 ++ rb ++ rd) = _
  rw [decodeHalf_class1 (by rw [code844_class]; rfl)]
  unfold decodeClass1
  rw [code844_high, code844_x, code844_y]
  rfl
theorem lduhInd (rd : Reg) (rb : Reg) : Statement (.lduhInd rd rb) := fun _ => by
  show decodeHalf (0b00101100#8 ++ rb ++ rd) = _
  rw [decodeHalf_class1 (by rw [code844_class]; rfl)]
  unfold decodeClass1
  rw [code844_high, code844_x, code844_y]
  rfl
theorem lduhInc (rd : Reg) (rb : Reg) : Statement (.lduhInc rd rb) := fun _ => by
  show decodeHalf (0b00101101#8 ++ rb ++ rd) = _
  rw [decodeHalf_class1 (by rw [code844_class]; rfl)]
  unfold decodeClass1
  rw [code844_high, code844_x, code844_y]
  rfl
theorem ldwInd (rd : Reg) (rb : Reg) : Statement (.ldwInd rd rb) := fun _ => by
  show decodeHalf (0b00110000#8 ++ rb ++ rd) = _
  rw [decodeHalf_class1 (by rw [code844_class]; rfl)]
  unfold decodeClass1
  rw [code844_high, code844_x, code844_y]
  rfl
theorem ldwInc (rd : Reg) (rb : Reg) : Statement (.ldwInc rd rb) := fun _ => by
  show decodeHalf (0b00110001#8 ++ rb ++ rd) = _
  rw [decodeHalf_class1 (by rw [code844_class]; rfl)]
  unfold decodeClass1
  rw [code844_high, code844_x, code844_y]
  rfl
theorem stbInd (rb : Reg) (rs : Reg) : Statement (.stbInd rb rs) := fun _ => by
  show decodeHalf (0b00110100#8 ++ rb ++ rs) = _
  rw [decodeHalf_class1 (by rw [code844_class]; rfl)]
  unfold decodeClass1
  rw [code844_high, code844_x, code844_y]
  rfl
theorem stbInc (rb : Reg) (rs : Reg) : Statement (.stbInc rb rs) := fun _ => by
  show decodeHalf (0b00110101#8 ++ rb ++ rs) = _
  rw [decodeHalf_class1 (by rw [code844_class]; rfl)]
  unfold decodeClass1
  rw [code844_high, code844_x, code844_y]
  rfl
theorem sthInd (rb : Reg) (rs : Reg) : Statement (.sthInd rb rs) := fun _ => by
  show decodeHalf (0b00111000#8 ++ rb ++ rs) = _
  rw [decodeHalf_class1 (by rw [code844_class]; rfl)]
  unfold decodeClass1
  rw [code844_high, code844_x, code844_y]
  rfl
theorem sthInc (rb : Reg) (rs : Reg) : Statement (.sthInc rb rs) := fun _ => by
  show decodeHalf (0b00111001#8 ++ rb ++ rs) = _
  rw [decodeHalf_class1 (by rw [code844_class]; rfl)]
  unfold decodeClass1
  rw [code844_high, code844_x, code844_y]
  rfl
theorem stwInd (rb : Reg) (rs : Reg) : Statement (.stwInd rb rs) := fun _ => by
  show decodeHalf (0b00111100#8 ++ rb ++ rs) = _
  rw [decodeHalf_class1 (by rw [code844_class]; rfl)]
  unfold decodeClass1
  rw [code844_high, code844_x, code844_y]
  rfl
theorem stwInc (rb : Reg) (rs : Reg) : Statement (.stwInc rb rs) := fun _ => by
  show decodeHalf (0b00111101#8 ++ rb ++ rs) = _
  rw [decodeHalf_class1 (by rw [code844_class]; rfl)]
  unfold decodeClass1
  rw [code844_high, code844_x, code844_y]
  rfl
theorem addReg (rd : Reg) (rs : Reg) : Statement (.addReg rd rs) := fun _ => by
  show decodeHalf (0b00100010#8 ++ rs ++ rd) = _
  rw [decodeHalf_class1 (by rw [code844_class]; rfl)]
  unfold decodeClass1
  rw [code844_high, code844_x, code844_y]
  rfl
theorem subReg (rd : Reg) (rs : Reg) : Statement (.subReg rd rs) := fun _ => by
  show decodeHalf (0b00100110#8 ++ rs ++ rd) = _
  rw [decodeHalf_class1 (by rw [code844_class]; rfl)]
  unfold decodeClass1
  rw [code844_high, code844_x, code844_y]
  rfl
theorem cmpReg (rd : Reg) (rs : Reg) : Statement (.cmpReg rd rs) := fun _ => by
  show decodeHalf (0b00101010#8 ++ rs ++ rd) = _
  rw [decodeHalf_class1 (by rw [code844_class]; rfl)]
  unfold decodeClass1
  rw [code844_high, code844_x, code844_y]
  rfl
theorem ldwReg (rd : Reg) (rs : Reg) : Statement (.ldwReg rd rs) := fun _ => by
  show decodeHalf (0b00101110#8 ++ rs ++ rd) = _
  rw [decodeHalf_class1 (by rw [code844_class]; rfl)]
  unfold decodeClass1
  rw [code844_high, code844_x, code844_y]
  rfl
theorem andReg (rd : Reg) (rs : Reg) : Statement (.andReg rd rs) := fun _ => by
  show decodeHalf (0b00110010#8 ++ rs ++ rd) = _
  rw [decodeHalf_class1 (by rw [code844_class]; rfl)]
  unfold decodeClass1
  rw [code844_high, code844_x, code844_y]
  rfl
theorem orReg (rd : Reg) (rs : Reg) : Statement (.orReg rd rs) := fun _ => by
  show decodeHalf (0b00110110#8 ++ rs ++ rd) = _
  rw [decodeHalf_class1 (by rw [code844_class]; rfl)]
  unfold decodeClass1
  rw [code844_high, code844_x, code844_y]
  rfl
theorem xorReg (rd : Reg) (rs : Reg) : Statement (.xorReg rd rs) := fun _ => by
  show decodeHalf (0b00111010#8 ++ rs ++ rd) = _
  rw [decodeHalf_class1 (by rw [code844_class]; rfl)]
  unfold decodeClass1
  rw [code844_high, code844_x, code844_y]
  rfl
theorem notReg (rd : Reg) (rs : Reg) : Statement (.notReg rd rs) := fun _ => by
  show decodeHalf (0b00111110#8 ++ rs ++ rd) = _
  rw [decodeHalf_class1 (by rw [code844_class]; rfl)]
  unfold decodeClass1
  rw [code844_high, code844_x, code844_y]
  rfl
theorem srlHigh (rd : Reg) (imm5 : BitVec 5) : Statement (.srlHigh rd imm5) := fun h => by
  show decodeHalf (0b00100011#8 ++ imm5.extractLsb' 0 4 ++ rd) = _
  rw [decodeHalf_class1 (by rw [code844_class]; rfl)]
  unfold decodeClass1
  rw [code844_high, code844_x, code844_y]
  exact congrArg (fun z => some (Instr.srlHigh rd z)) (high_count imm5 (of_decide_eq_true h))
theorem sllHigh (rd : Reg) (imm5 : BitVec 5) : Statement (.sllHigh rd imm5) := fun h => by
  show decodeHalf (0b00100111#8 ++ imm5.extractLsb' 0 4 ++ rd) = _
  rw [decodeHalf_class1 (by rw [code844_class]; rfl)]
  unfold decodeClass1
  rw [code844_high, code844_x, code844_y]
  exact congrArg (fun z => some (Instr.sllHigh rd z)) (high_count imm5 (of_decide_eq_true h))
theorem sraHigh (rd : Reg) (imm5 : BitVec 5) : Statement (.sraHigh rd imm5) := fun h => by
  show decodeHalf (0b00101011#8 ++ imm5.extractLsb' 0 4 ++ rd) = _
  rw [decodeHalf_class1 (by rw [code844_class]; rfl)]
  unfold decodeClass1
  rw [code844_high, code844_x, code844_y]
  exact congrArg (fun z => some (Instr.sraHigh rd z)) (high_count imm5 (of_decide_eq_true h))
theorem slaHigh (rd : Reg) (imm5 : BitVec 5) : Statement (.slaHigh rd imm5) := fun h => by
  show decodeHalf (0b00101111#8 ++ imm5.extractLsb' 0 4 ++ rd) = _
  rw [decodeHalf_class1 (by rw [code844_class]; rfl)]
  unfold decodeClass1
  rw [code844_high, code844_x, code844_y]
  exact congrArg (fun z => some (Instr.slaHigh rd z)) (high_count imm5 (of_decide_eq_true h))
theorem rrHigh (rd : Reg) (imm5 : BitVec 5) : Statement (.rrHigh rd imm5) := fun h => by
  show decodeHalf (0b00110011#8 ++ imm5.extractLsb' 0 4 ++ rd) = _
  rw [decodeHalf_class1 (by rw [code844_class]; rfl)]
  unfold decodeClass1
  rw [code844_high, code844_x, code844_y]
  exact congrArg (fun z => some (Instr.rrHigh rd z)) (high_count imm5 (of_decide_eq_true h))
theorem rlHigh (rd : Reg) (imm5 : BitVec 5) : Statement (.rlHigh rd imm5) := fun h => by
  show decodeHalf (0b00110111#8 ++ imm5.extractLsb' 0 4 ++ rd) = _
  rw [decodeHalf_class1 (by rw [code844_class]; rfl)]
  unfold decodeClass1
  rw [code844_high, code844_x, code844_y]
  exact congrArg (fun z => some (Instr.rlHigh rd z)) (high_count imm5 (of_decide_eq_true h))
theorem extSra (imm2 : BitVec 2) : Statement (.extSra imm2) := by
  revert imm2; unfold Statement; decide
theorem extSrl (imm2 : BitVec 2) : Statement (.extSrl imm2) := by
  revert imm2; unfold Statement; decide
theorem extSll (imm2 : BitVec 2) : Statement (.extSll imm2) := by
  revert imm2; unfold Statement; decide
theorem extGt : Statement (.extGt) := fun _ => rfl
theorem extGe : Statement (.extGe) := fun _ => rfl
theorem extLt : Statement (.extLt) := fun _ => rfl
theorem extLe : Statement (.extLe) := fun _ => rfl
theorem extUgt : Statement (.extUgt) := fun _ => rfl
theorem extUge : Statement (.extUge) := fun _ => rfl
theorem extUlt : Statement (.extUlt) := fun _ => rfl
theorem extUle : Statement (.extUle) := fun _ => rfl
theorem extEq : Statement (.extEq) := fun _ => rfl
theorem extNe : Statement (.extNe) := fun _ => rfl
theorem extReg (rs : Reg) : Statement (.extReg rs) := fun _ => by
  show decodeHalf (0b00111111#8 ++ rs ++ 0b0000#4) = _
  rw [decodeHalf_class1 (by rw [code844_class]; rfl)]
  unfold decodeClass1
  rw [code844_high, code844_x, code844_y]
  rfl
theorem extRegSra (rs : Reg) (imm2 : BitVec 2) : Statement (.extRegSra rs imm2) := fun _ => by
  show decodeHalf (0b00111111#8 ++ rs ++ 0b01#2 ++ imm2) = _
  rw [decodeHalf_class1 (by rw [code8422_class]; rfl)]
  unfold decodeClass1
  rw [code8422_high, code8422_x, code8422_y]
  rcases imm2_cases imm2 with h | h | h | h <;> subst h <;> rfl
theorem extRegSrl (rs : Reg) (imm2 : BitVec 2) : Statement (.extRegSrl rs imm2) := fun _ => by
  show decodeHalf (0b00111111#8 ++ rs ++ 0b10#2 ++ imm2) = _
  rw [decodeHalf_class1 (by rw [code8422_class]; rfl)]
  unfold decodeClass1
  rw [code8422_high, code8422_x, code8422_y]
  rcases imm2_cases imm2 with h | h | h | h <;> subst h <;> rfl
theorem extRegSll (rs : Reg) (imm2 : BitVec 2) : Statement (.extRegSll rs imm2) := fun _ => by
  show decodeHalf (0b00111111#8 ++ rs ++ 0b11#2 ++ imm2) = _
  rw [decodeHalf_class1 (by rw [code8422_class]; rfl)]
  unfold decodeClass1
  rw [code8422_high, code8422_x, code8422_y]
  rcases imm2_cases imm2 with h | h | h | h <;> subst h <;> rfl
theorem ldbSp (rd : Reg) (imm6 : BitVec 6) : Statement (.ldbSp rd imm6) := fun _ => by
  show decodeHalf (0b010000#6 ++ imm6 ++ rd) = _
  rw [decodeHalf_class2 (by rw [code664_class]; rfl)]
  unfold decodeClass2
  rw [code664_op1, code664_imm6, code664_y]
  rfl
theorem ldubSp (rd : Reg) (imm6 : BitVec 6) : Statement (.ldubSp rd imm6) := fun _ => by
  show decodeHalf (0b010001#6 ++ imm6 ++ rd) = _
  rw [decodeHalf_class2 (by rw [code664_class]; rfl)]
  unfold decodeClass2
  rw [code664_op1, code664_imm6, code664_y]
  rfl
theorem ldhSp (rd : Reg) (imm6 : BitVec 6) : Statement (.ldhSp rd imm6) := fun _ => by
  show decodeHalf (0b010010#6 ++ imm6 ++ rd) = _
  rw [decodeHalf_class2 (by rw [code664_class]; rfl)]
  unfold decodeClass2
  rw [code664_op1, code664_imm6, code664_y]
  rfl
theorem lduhSp (rd : Reg) (imm6 : BitVec 6) : Statement (.lduhSp rd imm6) := fun _ => by
  show decodeHalf (0b010011#6 ++ imm6 ++ rd) = _
  rw [decodeHalf_class2 (by rw [code664_class]; rfl)]
  unfold decodeClass2
  rw [code664_op1, code664_imm6, code664_y]
  rfl
theorem ldwSp (rd : Reg) (imm6 : BitVec 6) : Statement (.ldwSp rd imm6) := fun _ => by
  show decodeHalf (0b010100#6 ++ imm6 ++ rd) = _
  rw [decodeHalf_class2 (by rw [code664_class]; rfl)]
  unfold decodeClass2
  rw [code664_op1, code664_imm6, code664_y]
  rfl
theorem stbSp (imm6 : BitVec 6) (rs : Reg) : Statement (.stbSp imm6 rs) := fun _ => by
  show decodeHalf (0b010101#6 ++ imm6 ++ rs) = _
  rw [decodeHalf_class2 (by rw [code664_class]; rfl)]
  unfold decodeClass2
  rw [code664_op1, code664_imm6, code664_y]
  rfl
theorem sthSp (imm6 : BitVec 6) (rs : Reg) : Statement (.sthSp imm6 rs) := fun _ => by
  show decodeHalf (0b010110#6 ++ imm6 ++ rs) = _
  rw [decodeHalf_class2 (by rw [code664_class]; rfl)]
  unfold decodeClass2
  rw [code664_op1, code664_imm6, code664_y]
  rfl
theorem stwSp (imm6 : BitVec 6) (rs : Reg) : Statement (.stwSp imm6 rs) := fun _ => by
  show decodeHalf (0b010111#6 ++ imm6 ++ rs) = _
  rw [decodeHalf_class2 (by rw [code664_class]; rfl)]
  unfold decodeClass2
  rw [code664_op1, code664_imm6, code664_y]
  rfl
theorem ldbDp (rd : Reg) (imm6 : BitVec 6) : Statement (.ldbDp rd imm6) := fun _ => by
  show decodeHalf (0b111000#6 ++ imm6 ++ rd) = _
  rw [decodeHalf_class7 (by rw [code664_class]; rfl)]
  unfold decodeClass7
  rw [code664_op1, code664_imm6, code664_y]
  rfl
theorem ldubDp (rd : Reg) (imm6 : BitVec 6) : Statement (.ldubDp rd imm6) := fun _ => by
  show decodeHalf (0b111001#6 ++ imm6 ++ rd) = _
  rw [decodeHalf_class7 (by rw [code664_class]; rfl)]
  unfold decodeClass7
  rw [code664_op1, code664_imm6, code664_y]
  rfl
theorem ldhDp (rd : Reg) (imm6 : BitVec 6) : Statement (.ldhDp rd imm6) := fun _ => by
  show decodeHalf (0b111010#6 ++ imm6 ++ rd) = _
  rw [decodeHalf_class7 (by rw [code664_class]; rfl)]
  unfold decodeClass7
  rw [code664_op1, code664_imm6, code664_y]
  rfl
theorem lduhDp (rd : Reg) (imm6 : BitVec 6) : Statement (.lduhDp rd imm6) := fun _ => by
  show decodeHalf (0b111011#6 ++ imm6 ++ rd) = _
  rw [decodeHalf_class7 (by rw [code664_class]; rfl)]
  unfold decodeClass7
  rw [code664_op1, code664_imm6, code664_y]
  rfl
theorem ldwDp (rd : Reg) (imm6 : BitVec 6) : Statement (.ldwDp rd imm6) := fun _ => by
  show decodeHalf (0b111100#6 ++ imm6 ++ rd) = _
  rw [decodeHalf_class7 (by rw [code664_class]; rfl)]
  unfold decodeClass7
  rw [code664_op1, code664_imm6, code664_y]
  rfl
theorem stbDp (imm6 : BitVec 6) (rs : Reg) : Statement (.stbDp imm6 rs) := fun _ => by
  show decodeHalf (0b111101#6 ++ imm6 ++ rs) = _
  rw [decodeHalf_class7 (by rw [code664_class]; rfl)]
  unfold decodeClass7
  rw [code664_op1, code664_imm6, code664_y]
  rfl
theorem sthDp (imm6 : BitVec 6) (rs : Reg) : Statement (.sthDp imm6 rs) := fun _ => by
  show decodeHalf (0b111110#6 ++ imm6 ++ rs) = _
  rw [decodeHalf_class7 (by rw [code664_class]; rfl)]
  unfold decodeClass7
  rw [code664_op1, code664_imm6, code664_y]
  rfl
theorem stwDp (imm6 : BitVec 6) (rs : Reg) : Statement (.stwDp imm6 rs) := fun _ => by
  show decodeHalf (0b111111#6 ++ imm6 ++ rs) = _
  rw [decodeHalf_class7 (by rw [code664_class]; rfl)]
  unfold decodeClass7
  rw [code664_op1, code664_imm6, code664_y]
  rfl
theorem addImm (rd : Reg) (imm6 : BitVec 6) : Statement (.addImm rd imm6) := fun _ => by
  show decodeHalf (0b011000#6 ++ imm6 ++ rd) = _
  rw [decodeHalf_class3 (by rw [code664_class]; rfl)]
  unfold decodeClass3
  rw [code664_op1, code664_imm6, code664_y]
  rfl
theorem subImm (rd : Reg) (imm6 : BitVec 6) : Statement (.subImm rd imm6) := fun _ => by
  show decodeHalf (0b011001#6 ++ imm6 ++ rd) = _
  rw [decodeHalf_class3 (by rw [code664_class]; rfl)]
  unfold decodeClass3
  rw [code664_op1, code664_imm6, code664_y]
  rfl
theorem cmpImm (rd : Reg) (sign6 : BitVec 6) : Statement (.cmpImm rd sign6) := fun _ => by
  show decodeHalf (0b011010#6 ++ sign6 ++ rd) = _
  rw [decodeHalf_class3 (by rw [code664_class]; rfl)]
  unfold decodeClass3
  rw [code664_op1, code664_imm6, code664_y]
  rfl
theorem ldwImm (rd : Reg) (sign6 : BitVec 6) : Statement (.ldwImm rd sign6) := fun _ => by
  show decodeHalf (0b011011#6 ++ sign6 ++ rd) = _
  rw [decodeHalf_class3 (by rw [code664_class]; rfl)]
  unfold decodeClass3
  rw [code664_op1, code664_imm6, code664_y]
  rfl
theorem andImm (rd : Reg) (sign6 : BitVec 6) : Statement (.andImm rd sign6) := fun _ => by
  show decodeHalf (0b011100#6 ++ sign6 ++ rd) = _
  rw [decodeHalf_class3 (by rw [code664_class]; rfl)]
  unfold decodeClass3
  rw [code664_op1, code664_imm6, code664_y]
  rfl
theorem orImm (rd : Reg) (sign6 : BitVec 6) : Statement (.orImm rd sign6) := fun _ => by
  show decodeHalf (0b011101#6 ++ sign6 ++ rd) = _
  rw [decodeHalf_class3 (by rw [code664_class]; rfl)]
  unfold decodeClass3
  rw [code664_op1, code664_imm6, code664_y]
  rfl
theorem xorImm (rd : Reg) (sign6 : BitVec 6) : Statement (.xorImm rd sign6) := fun _ => by
  show decodeHalf (0b011110#6 ++ sign6 ++ rd) = _
  rw [decodeHalf_class3 (by rw [code664_class]; rfl)]
  unfold decodeClass3
  rw [code664_op1, code664_imm6, code664_y]
  rfl
theorem notImm (rd : Reg) (sign6 : BitVec 6) : Statement (.notImm rd sign6) := fun _ => by
  show decodeHalf (0b011111#6 ++ sign6 ++ rd) = _
  rw [decodeHalf_class3 (by rw [code664_class]; rfl)]
  unfold decodeClass3
  rw [code664_op1, code664_imm6, code664_y]
  rfl
theorem addSp (imm10 : BitVec 10) : Statement (.addSp imm10) := fun _ => by
  show decodeHalf (0b100000#6 ++ imm10) = _
  rw [decodeHalf_class4 (by rw [code610_class]; rfl)]
  unfold decodeClass4
  rw [code610_op1, code610_low]
  rfl
theorem subSp (imm10 : BitVec 10) : Statement (.subSp imm10) := fun _ => by
  show decodeHalf (0b100001#6 ++ imm10) = _
  rw [decodeHalf_class4 (by rw [code610_class]; rfl)]
  unfold decodeClass4
  rw [code610_op1, code610_low]
  rfl
theorem srlLow (rd : Reg) (imm5 : BitVec 5) : Statement (.srlLow rd imm5) := fun h => by
  show decodeHalf (0b10001000#8 ++ imm5.extractLsb' 0 4 ++ rd) = _
  rw [decodeHalf_class4 (by rw [code844_class]; rfl)]
  unfold decodeClass4
  rw [code844_op1, code844_high, code844_x, code844_y]
  exact congrArg (fun z => some (Instr.srlLow rd z)) (low_count imm5 (of_decide_eq_true h))
theorem srlReg (rd : Reg) (rs : Reg) : Statement (.srlReg rd rs) := fun _ => by
  show decodeHalf (0b10001001#8 ++ rs ++ rd) = _
  rw [decodeHalf_class4 (by rw [code844_class]; rfl)]
  unfold decodeClass4
  rw [code844_op1, code844_high, code844_x, code844_y]
  rfl
theorem sllLow (rd : Reg) (imm5 : BitVec 5) : Statement (.sllLow rd imm5) := fun h => by
  show decodeHalf (0b10001100#8 ++ imm5.extractLsb' 0 4 ++ rd) = _
  rw [decodeHalf_class4 (by rw [code844_class]; rfl)]
  unfold decodeClass4
  rw [code844_op1, code844_high, code844_x, code844_y]
  exact congrArg (fun z => some (Instr.sllLow rd z)) (low_count imm5 (of_decide_eq_true h))
theorem sllReg (rd : Reg) (rs : Reg) : Statement (.sllReg rd rs) := fun _ => by
  show decodeHalf (0b10001101#8 ++ rs ++ rd) = _
  rw [decodeHalf_class4 (by rw [code844_class]; rfl)]
  unfold decodeClass4
  rw [code844_op1, code844_high, code844_x, code844_y]
  rfl
theorem sraLow (rd : Reg) (imm5 : BitVec 5) : Statement (.sraLow rd imm5) := fun h => by
  show decodeHalf (0b10010000#8 ++ imm5.extractLsb' 0 4 ++ rd) = _
  rw [decodeHalf_class4 (by rw [code844_class]; rfl)]
  unfold decodeClass4
  rw [code844_op1, code844_high, code844_x, code844_y]
  exact congrArg (fun z => some (Instr.sraLow rd z)) (low_count imm5 (of_decide_eq_true h))
theorem sraReg (rd : Reg) (rs : Reg) : Statement (.sraReg rd rs) := fun _ => by
  show decodeHalf (0b10010001#8 ++ rs ++ rd) = _
  rw [decodeHalf_class4 (by rw [code844_class]; rfl)]
  unfold decodeClass4
  rw [code844_op1, code844_high, code844_x, code844_y]
  rfl
theorem slaLow (rd : Reg) (imm5 : BitVec 5) : Statement (.slaLow rd imm5) := fun h => by
  show decodeHalf (0b10010100#8 ++ imm5.extractLsb' 0 4 ++ rd) = _
  rw [decodeHalf_class4 (by rw [code844_class]; rfl)]
  unfold decodeClass4
  rw [code844_op1, code844_high, code844_x, code844_y]
  exact congrArg (fun z => some (Instr.slaLow rd z)) (low_count imm5 (of_decide_eq_true h))
theorem slaReg (rd : Reg) (rs : Reg) : Statement (.slaReg rd rs) := fun _ => by
  show decodeHalf (0b10010101#8 ++ rs ++ rd) = _
  rw [decodeHalf_class4 (by rw [code844_class]; rfl)]
  unfold decodeClass4
  rw [code844_op1, code844_high, code844_x, code844_y]
  rfl
theorem rrLow (rd : Reg) (imm5 : BitVec 5) : Statement (.rrLow rd imm5) := fun h => by
  show decodeHalf (0b10011000#8 ++ imm5.extractLsb' 0 4 ++ rd) = _
  rw [decodeHalf_class4 (by rw [code844_class]; rfl)]
  unfold decodeClass4
  rw [code844_op1, code844_high, code844_x, code844_y]
  exact congrArg (fun z => some (Instr.rrLow rd z)) (low_count imm5 (of_decide_eq_true h))
theorem rrReg (rd : Reg) (rs : Reg) : Statement (.rrReg rd rs) := fun _ => by
  show decodeHalf (0b10011001#8 ++ rs ++ rd) = _
  rw [decodeHalf_class4 (by rw [code844_class]; rfl)]
  unfold decodeClass4
  rw [code844_op1, code844_high, code844_x, code844_y]
  rfl
theorem rlLow (rd : Reg) (imm5 : BitVec 5) : Statement (.rlLow rd imm5) := fun h => by
  show decodeHalf (0b10011100#8 ++ imm5.extractLsb' 0 4 ++ rd) = _
  rw [decodeHalf_class4 (by rw [code844_class]; rfl)]
  unfold decodeClass4
  rw [code844_op1, code844_high, code844_x, code844_y]
  exact congrArg (fun z => some (Instr.rlLow rd z)) (low_count imm5 (of_decide_eq_true h))
theorem rlReg (rd : Reg) (rs : Reg) : Statement (.rlReg rd rs) := fun _ => by
  show decodeHalf (0b10011101#8 ++ rs ++ rd) = _
  rw [decodeHalf_class4 (by rw [code844_class]; rfl)]
  unfold decodeClass4
  rw [code844_op1, code844_high, code844_x, code844_y]
  rfl
theorem scan0 (rd : Reg) (rs : Reg) : Statement (.scan0 rd rs) := fun _ => by
  show decodeHalf (0b10001010#8 ++ rs ++ rd) = _
  rw [decodeHalf_class4 (by rw [code844_class]; rfl)]
  unfold decodeClass4
  rw [code844_op1, code844_high, code844_x, code844_y]
  rfl
theorem scan1 (rd : Reg) (rs : Reg) : Statement (.scan1 rd rs) := fun _ => by
  show decodeHalf (0b10001110#8 ++ rs ++ rd) = _
  rw [decodeHalf_class4 (by rw [code844_class]; rfl)]
  unfold decodeClass4
  rw [code844_op1, code844_high, code844_x, code844_y]
  rfl
theorem swap (rd : Reg) (rs : Reg) : Statement (.swap rd rs) := fun _ => by
  show decodeHalf (0b10010010#8 ++ rs ++ rd) = _
  rw [decodeHalf_class4 (by rw [code844_class]; rfl)]
  unfold decodeClass4
  rw [code844_op1, code844_high, code844_x, code844_y]
  rfl
theorem mirror (rd : Reg) (rs : Reg) : Statement (.mirror rd rs) := fun _ => by
  show decodeHalf (0b10010110#8 ++ rs ++ rd) = _
  rw [decodeHalf_class4 (by rw [code844_class]; rfl)]
  unfold decodeClass4
  rw [code844_op1, code844_high, code844_x, code844_y]
  rfl
theorem swaph (rd : Reg) (rs : Reg) : Statement (.swaph rd rs) := fun _ => by
  show decodeHalf (0b10011010#8 ++ rs ++ rd) = _
  rw [decodeHalf_class4 (by rw [code844_class]; rfl)]
  unfold decodeClass4
  rw [code844_op1, code844_high, code844_x, code844_y]
  rfl
theorem satB (rd : Reg) (rs : Reg) : Statement (.satB rd rs) := fun _ => by
  show decodeHalf (0b10011110#8 ++ rs ++ rd) = _
  rw [decodeHalf_class4 (by rw [code844_class]; rfl)]
  unfold decodeClass4
  rw [code844_op1, code844_high, code844_x, code844_y]
  rfl
theorem div0s (rs : Reg) : Statement (.div0s rs) := fun _ => by
  show decodeHalf (0b10001011#8 ++ rs ++ 0b0000#4) = _
  rw [decodeHalf_class4 (by rw [code844_class]; rfl)]
  unfold decodeClass4
  rw [code844_op1, code844_high, code844_x, code844_y]
  rfl
theorem div0u (rs : Reg) : Statement (.div0u rs) := fun _ => by
  show decodeHalf (0b10001111#8 ++ rs ++ 0b0000#4) = _
  rw [decodeHalf_class4 (by rw [code844_class]; rfl)]
  unfold decodeClass4
  rw [code844_op1, code844_high, code844_x, code844_y]
  rfl
theorem div1 (rs : Reg) : Statement (.div1 rs) := fun _ => by
  show decodeHalf (0b10010011#8 ++ rs ++ 0b0000#4) = _
  rw [decodeHalf_class4 (by rw [code844_class]; rfl)]
  unfold decodeClass4
  rw [code844_op1, code844_high, code844_x, code844_y]
  rfl
theorem div2s (rs : Reg) : Statement (.div2s rs) := fun _ => by
  show decodeHalf (0b10010111#8 ++ rs ++ 0b0000#4) = _
  rw [decodeHalf_class4 (by rw [code844_class]; rfl)]
  unfold decodeClass4
  rw [code844_op1, code844_high, code844_x, code844_y]
  rfl
theorem div3s : Statement (.div3s) := fun _ => rfl
theorem satUb (rd : Reg) (rs : Reg) : Statement (.satUb rd rs) := fun _ => by
  show decodeHalf (0b10011111#8 ++ rs ++ rd) = _
  rw [decodeHalf_class4 (by rw [code844_class]; rfl)]
  unfold decodeClass4
  rw [code844_op1, code844_high, code844_x, code844_y]
  rfl
theorem ldwSd (sd : SReg) (rs : Reg) : Statement (.ldwSd sd rs) := fun _ => by
  show decodeHalf (0b10100000#8 ++ rs ++ sd) = _
  rw [decodeHalf_class5 (by rw [code844_class]; rfl)]
  unfold decodeClass5
  rw [code844_high, code844_x, code844_y]
  rfl
theorem ldbReg (rd : Reg) (rs : Reg) : Statement (.ldbReg rd rs) := fun _ => by
  show decodeHalf (0b10100001#8 ++ rs ++ rd) = _
  rw [decodeHalf_class5 (by rw [code844_class]; rfl)]
  unfold decodeClass5
  rw [code844_high, code844_x, code844_y]
  rfl
theorem mltH (rd : Reg) (rs : Reg) : Statement (.mltH rd rs) := fun _ => by
  show decodeHalf (0b10100010#8 ++ rs ++ rd) = _
  rw [decodeHalf_class5 (by rw [code844_class]; rfl)]
  unfold decodeClass5
  rw [code844_high, code844_x, code844_y]
  rfl
theorem mltHw (rd : Reg) (rs : Reg) : Statement (.mltHw rd rs) := fun _ => by
  show decodeHalf (0b10100011#8 ++ rs ++ rd) = _
  rw [decodeHalf_class5 (by rw [code844_class]; rfl)]
  unfold decodeClass5
  rw [code844_high, code844_x, code844_y]
  rfl
theorem ldwSs (rd : Reg) (ss : SReg) : Statement (.ldwSs rd ss) := fun _ => by
  show decodeHalf (0b10100100#8 ++ ss ++ rd) = _
  rw [decodeHalf_class5 (by rw [code844_class]; rfl)]
  unfold decodeClass5
  rw [code844_high, code844_x, code844_y]
  rfl
theorem ldubReg (rd : Reg) (rs : Reg) : Statement (.ldubReg rd rs) := fun _ => by
  show decodeHalf (0b10100101#8 ++ rs ++ rd) = _
  rw [decodeHalf_class5 (by rw [code844_class]; rfl)]
  unfold decodeClass5
  rw [code844_high, code844_x, code844_y]
  rfl
theorem mltuH (rd : Reg) (rs : Reg) : Statement (.mltuH rd rs) := fun _ => by
  show decodeHalf (0b10100110#8 ++ rs ++ rd) = _
  rw [decodeHalf_class5 (by rw [code844_class]; rfl)]
  unfold decodeClass5
  rw [code844_high, code844_x, code844_y]
  rfl
theorem mac1H (rd : Reg) (rs : Reg) : Statement (.mac1H rd rs) := fun _ => by
  show decodeHalf (0b10100111#8 ++ rs ++ rd) = _
  rw [decodeHalf_class5 (by rw [code844_class]; rfl)]
  unfold decodeClass5
  rw [code844_high, code844_x, code844_y]
  rfl
theorem btst (rb : Reg) (imm3 : BitVec 3) : Statement (.btst rb imm3) := fun _ => by
  show decodeHalf (0b10101000#8 ++ rb ++ 0b0#1 ++ imm3) = _
  rw [decodeHalf_class5 (by rw [code8413_class]; rfl)]
  unfold decodeClass5
  rw [code8413_high, code8413_x, code8413_y]
  exact bitField imm3 _
theorem ldhReg (rd : Reg) (rs : Reg) : Statement (.ldhReg rd rs) := fun _ => by
  show decodeHalf (0b10101001#8 ++ rs ++ rd) = _
  rw [decodeHalf_class5 (by rw [code844_class]; rfl)]
  unfold decodeClass5
  rw [code844_high, code844_x, code844_y]
  rfl
theorem mltW (rd : Reg) (rs : Reg) : Statement (.mltW rd rs) := fun _ => by
  show decodeHalf (0b10101010#8 ++ rs ++ rd) = _
  rw [decodeHalf_class5 (by rw [code844_class]; rfl)]
  unfold decodeClass5
  rw [code844_high, code844_x, code844_y]
  rfl
theorem mac1Hw (rd : Reg) (rs : Reg) : Statement (.mac1Hw rd rs) := fun _ => by
  show decodeHalf (0b10101011#8 ++ rs ++ rd) = _
  rw [decodeHalf_class5 (by rw [code844_class]; rfl)]
  unfold decodeClass5
  rw [code844_high, code844_x, code844_y]
  rfl
theorem bclr (rb : Reg) (imm3 : BitVec 3) : Statement (.bclr rb imm3) := fun _ => by
  show decodeHalf (0b10101100#8 ++ rb ++ 0b0#1 ++ imm3) = _
  rw [decodeHalf_class5 (by rw [code8413_class]; rfl)]
  unfold decodeClass5
  rw [code8413_high, code8413_x, code8413_y]
  exact bitField imm3 _
theorem lduhReg (rd : Reg) (rs : Reg) : Statement (.lduhReg rd rs) := fun _ => by
  show decodeHalf (0b10101101#8 ++ rs ++ rd) = _
  rw [decodeHalf_class5 (by rw [code844_class]; rfl)]
  unfold decodeClass5
  rw [code844_high, code844_x, code844_y]
  rfl
theorem mltuW (rd : Reg) (rs : Reg) : Statement (.mltuW rd rs) := fun _ => by
  show decodeHalf (0b10101110#8 ++ rs ++ rd) = _
  rw [decodeHalf_class5 (by rw [code844_class]; rfl)]
  unfold decodeClass5
  rw [code844_high, code844_x, code844_y]
  rfl
theorem bset (rb : Reg) (imm3 : BitVec 3) : Statement (.bset rb imm3) := fun _ => by
  show decodeHalf (0b10110000#8 ++ rb ++ 0b0#1 ++ imm3) = _
  rw [decodeHalf_class5 (by rw [code8413_class]; rfl)]
  unfold decodeClass5
  rw [code8413_high, code8413_x, code8413_y]
  exact bitField imm3 _
theorem ldcRead (rd : Reg) (imm4 : BitVec 4) : Statement (.ldcRead rd imm4) := fun _ => by
  show decodeHalf (0b10110001#8 ++ imm4 ++ rd) = _
  rw [decodeHalf_class5 (by rw [code844_class]; rfl)]
  unfold decodeClass5
  rw [code844_high, code844_x, code844_y]
  rfl
theorem mac (rs : Reg) : Statement (.mac rs) := fun _ => by
  show decodeHalf (0b10110010#8 ++ rs ++ 0b0000#4) = _
  rw [decodeHalf_class5 (by rw [code844_class]; rfl)]
  unfold decodeClass5
  rw [code844_high, code844_x, code844_y]
  rfl
theorem mac1W (rd : Reg) (rs : Reg) : Statement (.mac1W rd rs) := fun _ => by
  show decodeHalf (0b10110011#8 ++ rs ++ rd) = _
  rw [decodeHalf_class5 (by rw [code844_class]; rfl)]
  unfold decodeClass5
  rw [code844_high, code844_x, code844_y]
  rfl
theorem bnot (rb : Reg) (imm3 : BitVec 3) : Statement (.bnot rb imm3) := fun _ => by
  show decodeHalf (0b10110100#8 ++ rb ++ 0b0#1 ++ imm3) = _
  rw [decodeHalf_class5 (by rw [code8413_class]; rfl)]
  unfold decodeClass5
  rw [code8413_high, code8413_x, code8413_y]
  exact bitField imm3 _
theorem ldcWrite (imm4 : BitVec 4) (rs : Reg) : Statement (.ldcWrite imm4 rs) := fun _ => by
  show decodeHalf (0b10110101#8 ++ imm4 ++ rs) = _
  rw [decodeHalf_class5 (by rw [code844_class]; rfl)]
  unfold decodeClass5
  rw [code844_high, code844_x, code844_y]
  rfl
theorem satH (rd : Reg) (rs : Reg) : Statement (.satH rd rs) := fun _ => by
  show decodeHalf (0b10110110#8 ++ rs ++ rd) = _
  rw [decodeHalf_class5 (by rw [code844_class]; rfl)]
  unfold decodeClass5
  rw [code844_high, code844_x, code844_y]
  rfl
theorem satUh (rd : Reg) (rs : Reg) : Statement (.satUh rd rs) := fun _ => by
  show decodeHalf (0b10110111#8 ++ rs ++ rd) = _
  rw [decodeHalf_class5 (by rw [code844_class]; rfl)]
  unfold decodeClass5
  rw [code844_high, code844_x, code844_y]
  rfl
theorem adc (rd : Reg) (rs : Reg) : Statement (.adc rd rs) := fun _ => by
  show decodeHalf (0b10111000#8 ++ rs ++ rd) = _
  rw [decodeHalf_class5 (by rw [code844_class]; rfl)]
  unfold decodeClass5
  rw [code844_high, code844_x, code844_y]
  rfl
theorem loopReg (rc : Reg) (ra : Reg) : Statement (.loopReg rc ra) := fun _ => by
  show decodeHalf (0b10111001#8 ++ ra ++ rc) = _
  rw [decodeHalf_class5 (by rw [code844_class]; rfl)]
  unfold decodeClass5
  rw [code844_high, code844_x, code844_y]
  rfl
theorem loopRegImm (rc : Reg) (imm4 : BitVec 4) : Statement (.loopRegImm rc imm4) := fun _ => by
  show decodeHalf (0b10111010#8 ++ imm4 ++ rc) = _
  rw [decodeHalf_class5 (by rw [code844_class]; rfl)]
  unfold decodeClass5
  rw [code844_high, code844_x, code844_y]
  rfl
theorem loopImm (count : BitVec 4) (addr : BitVec 4) : Statement (.loopImm count addr) := fun _ => by
  show decodeHalf (0b10111011#8 ++ addr ++ count) = _
  rw [decodeHalf_class5 (by rw [code844_class]; rfl)]
  unfold decodeClass5
  rw [code844_high, code844_x, code844_y]
  rfl
theorem sbc (rd : Reg) (rs : Reg) : Statement (.sbc rd rs) := fun _ => by
  show decodeHalf (0b10111100#8 ++ rs ++ rd) = _
  rw [decodeHalf_class5 (by rw [code844_class]; rfl)]
  unfold decodeClass5
  rw [code844_high, code844_x, code844_y]
  rfl
theorem satW (rd : Reg) (rs : Reg) : Statement (.satW rd rs) := fun _ => by
  show decodeHalf (0b10111101#8 ++ rs ++ rd) = _
  rw [decodeHalf_class5 (by rw [code844_class]; rfl)]
  unfold decodeClass5
  rw [code844_high, code844_x, code844_y]
  rfl
theorem satUw (rd : Reg) (rs : Reg) : Statement (.satUw rd rs) := fun _ => by
  show decodeHalf (0b10111110#8 ++ rs ++ rd) = _
  rw [decodeHalf_class5 (by rw [code844_class]; rfl)]
  unfold decodeClass5
  rw [code844_high, code844_x, code844_y]
  rfl
theorem doC (imm6 : BitVec 6) : Statement (.doC imm6) := fun _ => by
  show decodeHalf (0b1011111100#10 ++ imm6) = _
  rw [decodeHalf_class5 (by rw [code106_class]; rfl)]
  unfold decodeClass5
  rw [code106_high]
  show decodeSystem (0b1011111100#10 ++ imm6) = _
  unfold decodeSystem
  rw [code106_group, code106_low]
  rfl
theorem psrset (imm5 : BitVec 5) : Statement (.psrset imm5) := fun _ => by
  show decodeHalf (0b10111111010#11 ++ imm5) = _
  rw [decodeHalf_class5 (by rw [code115_class]; rfl)]
  unfold decodeClass5
  rw [code115_high]
  show decodeSystem (0b10111111010#11 ++ imm5) = _
  unfold decodeSystem
  rw [code115_group, code115_five, code115_low]
  rfl
theorem psrclr (imm5 : BitVec 5) : Statement (.psrclr imm5) := fun _ => by
  show decodeHalf (0b10111111100#11 ++ imm5) = _
  rw [decodeHalf_class5 (by rw [code115_class]; rfl)]
  unfold decodeClass5
  rw [code115_high]
  show decodeSystem (0b10111111100#11 ++ imm5) = _
  unfold decodeSystem
  rw [code115_group, code115_five, code115_low]
  rfl
theorem extImm (imm13 : BitVec 13) : Statement (.extImm imm13) := fun _ => by
  show decodeHalf (0b110#3 ++ imm13) = _
  unfold decodeHalf
  rw [code313_class, code313_low]
  rfl

end RoundTrip

end Sys2Proof.Laws
end

