-- ==== Sys2Proof/Tests/Slice0.lean ====
section
/-! SUPPORT. The tests of this model: ill-formed terms refused, codes written out bit by bit, one step of each instruction
with the values 95_test_vectors.md prints (its row numbers and part numbers stand at each group), and for each statement
with hypotheses a state that meets them. -/

namespace Sys2Proof.Tests
open Sys2Proof.Machine Sys2Proof.Spec

/-! ## Well-formedness: each check refuses a term -/

theorem test_srlHigh_15_ill : ¬ (Instr.srlHigh 0 15).WellFormed := by decide
theorem test_sllHigh_15_ill : ¬ (Instr.sllHigh 0 15).WellFormed := by decide
theorem test_sraHigh_15_ill : ¬ (Instr.sraHigh 0 15).WellFormed := by decide
theorem test_slaHigh_15_ill : ¬ (Instr.slaHigh 0 15).WellFormed := by decide
theorem test_rrHigh_15_ill : ¬ (Instr.rrHigh 0 15).WellFormed := by decide
theorem test_rlHigh_15_ill : ¬ (Instr.rlHigh 0 15).WellFormed := by decide
theorem test_srlLow_16_ill : ¬ (Instr.srlLow 0 16).WellFormed := by decide
theorem test_sllLow_16_ill : ¬ (Instr.sllLow 0 16).WellFormed := by decide
theorem test_sraLow_16_ill : ¬ (Instr.sraLow 0 16).WellFormed := by decide
theorem test_slaLow_16_ill : ¬ (Instr.slaLow 0 16).WellFormed := by decide
theorem test_rrLow_16_ill : ¬ (Instr.rrLow 0 16).WellFormed := by decide
theorem test_rlLow_16_ill : ¬ (Instr.rlLow 0 16).WellFormed := by decide

/-! ## Decoding -/

/-- Rows 1 to 17 of the opcode table. -/
theorem test_decode_rows_1_to_17 :
    decodeHalf 0b0000_0000_0000_0000#16 = some .nop ∧
    decodeHalf 0b0000_0000_0100_0000#16 = some .slp ∧
    decodeHalf 0b0000_0000_1000_0000#16 = some .halt ∧
    decodeHalf 0b0000_0010_0000_1101#16 = some (.pushn 13) ∧
    decodeHalf 0b0000_0010_0100_1101#16 = some (.popn 13) ∧
    decodeHalf 0b0000_0011_1100_0110#16 = some (.jpr true 6) ∧
    decodeHalf 0b0000_0100_0000_0000#16 = some .brk ∧
    decodeHalf 0b0000_0100_0100_0000#16 = some .retd ∧
    decodeHalf 0b0000_0100_1000_0010#16 = some (.int 2) ∧
    decodeHalf 0b0000_0100_1100_0000#16 = some .reti ∧
    decodeHalf 0b0000_0111_0000_0110#16 = some (.callReg true 6) ∧
    decodeHalf 0b0000_0111_0100_0000#16 = some (.ret true) ∧
    decodeHalf 0b0000_0111_1000_0110#16 = some (.jpReg true 6) ∧
    decodeHalf 0b0000_0110_1100_0000#16 = some .retm ∧
    decodeHalf 0b0000_0000_0001_1101#16 = some (.push 13) ∧
    decodeHalf 0b0000_0000_0101_1101#16 = some (.pop 13) ∧
    decodeHalf 0b0000_0000_1001_1101#16 = some (.pushs 13) := by decide

/-- Rows 18 to 34 of the opcode table. -/
theorem test_decode_rows_18_to_34 :
    decodeHalf 0b0000_0000_1101_1101#16 = some (.pops 13) ∧
    decodeHalf 0b0000_0001_0001_1101#16 = some (.macW 13) ∧
    decodeHalf 0b0000_0001_0101_1101#16 = some (.macHw 13) ∧
    decodeHalf 0b0000_0001_1001_0000#16 = some .macclr ∧
    decodeHalf 0b0000_0001_1101_0000#16 = some .ldCf ∧
    decodeHalf 0b0000_0010_0001_1101#16 = some (.divuW 13) ∧
    decodeHalf 0b0000_0010_0101_1101#16 = some (.divW 13) ∧
    decodeHalf 0b0000_0010_1001_1101#16 = some (.repeatReg 13) ∧
    decodeHalf 0b0000_0010_1101_1101#16 = some (.repeatImm 13) ∧
    decodeHalf 0b0000_0011_0101_1101#16 = some (.addDp 13) ∧
    decodeHalf 0b0000_1001_1000_0111#16 = some (.jrgt true 135) ∧
    decodeHalf 0b0000_1011_1000_0111#16 = some (.jrge true 135) ∧
    decodeHalf 0b0000_1101_1000_0111#16 = some (.jrlt true 135) ∧
    decodeHalf 0b0000_1111_1000_0111#16 = some (.jrle true 135) ∧
    decodeHalf 0b0001_0001_1000_0111#16 = some (.jrugt true 135) ∧
    decodeHalf 0b0001_0011_1000_0111#16 = some (.jruge true 135) ∧
    decodeHalf 0b0001_0101_1000_0111#16 = some (.jrult true 135) := by decide

/-- Rows 35 to 51 of the opcode table. -/
theorem test_decode_rows_35_to_51 :
    decodeHalf 0b0001_0111_1000_0111#16 = some (.jrule true 135) ∧
    decodeHalf 0b0001_1001_1000_0111#16 = some (.jreq true 135) ∧
    decodeHalf 0b0001_1011_1000_0111#16 = some (.jrne true 135) ∧
    decodeHalf 0b0001_1101_1000_0111#16 = some (.callRel true 135) ∧
    decodeHalf 0b0001_1111_1000_0111#16 = some (.jpRel true 135) ∧
    decodeHalf 0b0010_0000_0110_1101#16 = some (.ldbInd 13 6) ∧
    decodeHalf 0b0010_0001_0110_1101#16 = some (.ldbInc 13 6) ∧
    decodeHalf 0b0010_0100_0110_1101#16 = some (.ldubInd 13 6) ∧
    decodeHalf 0b0010_0101_0110_1101#16 = some (.ldubInc 13 6) ∧
    decodeHalf 0b0010_1000_0110_1101#16 = some (.ldhInd 13 6) ∧
    decodeHalf 0b0010_1001_0110_1101#16 = some (.ldhInc 13 6) ∧
    decodeHalf 0b0010_1100_0110_1101#16 = some (.lduhInd 13 6) ∧
    decodeHalf 0b0010_1101_0110_1101#16 = some (.lduhInc 13 6) ∧
    decodeHalf 0b0011_0000_0110_1101#16 = some (.ldwInd 13 6) ∧
    decodeHalf 0b0011_0001_0110_1101#16 = some (.ldwInc 13 6) ∧
    decodeHalf 0b0011_0100_1101_0110#16 = some (.stbInd 13 6) ∧
    decodeHalf 0b0011_0101_1101_0110#16 = some (.stbInc 13 6) := by decide

/-- Rows 52 to 68 of the opcode table. -/
theorem test_decode_rows_52_to_68 :
    decodeHalf 0b0011_1000_1101_0110#16 = some (.sthInd 13 6) ∧
    decodeHalf 0b0011_1001_1101_0110#16 = some (.sthInc 13 6) ∧
    decodeHalf 0b0011_1100_1101_0110#16 = some (.stwInd 13 6) ∧
    decodeHalf 0b0011_1101_1101_0110#16 = some (.stwInc 13 6) ∧
    decodeHalf 0b0010_0010_0110_1101#16 = some (.addReg 13 6) ∧
    decodeHalf 0b0010_0110_0110_1101#16 = some (.subReg 13 6) ∧
    decodeHalf 0b0010_1010_0110_1101#16 = some (.cmpReg 13 6) ∧
    decodeHalf 0b0010_1110_0110_1101#16 = some (.ldwReg 13 6) ∧
    decodeHalf 0b0011_0010_0110_1101#16 = some (.andReg 13 6) ∧
    decodeHalf 0b0011_0110_0110_1101#16 = some (.orReg 13 6) ∧
    decodeHalf 0b0011_1010_0110_1101#16 = some (.xorReg 13 6) ∧
    decodeHalf 0b0011_1110_0110_1101#16 = some (.notReg 13 6) ∧
    decodeHalf 0b0010_0011_1101_1101#16 = some (.srlHigh 13 29) ∧
    decodeHalf 0b0010_0111_1101_1101#16 = some (.sllHigh 13 29) ∧
    decodeHalf 0b0010_1011_1101_1101#16 = some (.sraHigh 13 29) ∧
    decodeHalf 0b0010_1111_1101_1101#16 = some (.slaHigh 13 29) ∧
    decodeHalf 0b0011_0011_1101_1101#16 = some (.rrHigh 13 29) := by decide

/-- Rows 69 to 85 of the opcode table. -/
theorem test_decode_rows_69_to_85 :
    decodeHalf 0b0011_0111_1101_1101#16 = some (.rlHigh 13 29) ∧
    decodeHalf 0b0011_1011_0000_0110#16 = some (.extSra 2) ∧
    decodeHalf 0b0011_1011_0000_1010#16 = some (.extSrl 2) ∧
    decodeHalf 0b0011_1011_0000_1110#16 = some (.extSll 2) ∧
    decodeHalf 0b0011_1011_0100_0000#16 = some .extGt ∧
    decodeHalf 0b0011_1011_0101_0000#16 = some .extGe ∧
    decodeHalf 0b0011_1011_0110_0000#16 = some .extLt ∧
    decodeHalf 0b0011_1011_0111_0000#16 = some .extLe ∧
    decodeHalf 0b0011_1011_1000_0000#16 = some .extUgt ∧
    decodeHalf 0b0011_1011_1001_0000#16 = some .extUge ∧
    decodeHalf 0b0011_1011_1010_0000#16 = some .extUlt ∧
    decodeHalf 0b0011_1011_1011_0000#16 = some .extUle ∧
    decodeHalf 0b0011_1011_1100_0000#16 = some .extEq ∧
    decodeHalf 0b0011_1011_1101_0000#16 = some .extNe ∧
    decodeHalf 0b0011_1111_1101_0000#16 = some (.extReg 13) ∧
    decodeHalf 0b0011_1111_1101_0110#16 = some (.extRegSra 13 2) ∧
    decodeHalf 0b0011_1111_1101_1010#16 = some (.extRegSrl 13 2) := by decide

/-- Rows 86 to 102 of the opcode table. -/
theorem test_decode_rows_86_to_102 :
    decodeHalf 0b0011_1111_1101_1110#16 = some (.extRegSll 13 2) ∧
    decodeHalf 0b0100_0010_0110_1101#16 = some (.ldbSp 13 38) ∧
    decodeHalf 0b0100_0110_0110_1101#16 = some (.ldubSp 13 38) ∧
    decodeHalf 0b0100_1010_0110_1101#16 = some (.ldhSp 13 38) ∧
    decodeHalf 0b0100_1110_0110_1101#16 = some (.lduhSp 13 38) ∧
    decodeHalf 0b0101_0010_0110_1101#16 = some (.ldwSp 13 38) ∧
    decodeHalf 0b0101_0110_0110_0110#16 = some (.stbSp 38 6) ∧
    decodeHalf 0b0101_1010_0110_0110#16 = some (.sthSp 38 6) ∧
    decodeHalf 0b0101_1110_0110_0110#16 = some (.stwSp 38 6) ∧
    decodeHalf 0b1110_0010_0110_1101#16 = some (.ldbDp 13 38) ∧
    decodeHalf 0b1110_0110_0110_1101#16 = some (.ldubDp 13 38) ∧
    decodeHalf 0b1110_1010_0110_1101#16 = some (.ldhDp 13 38) ∧
    decodeHalf 0b1110_1110_0110_1101#16 = some (.lduhDp 13 38) ∧
    decodeHalf 0b1111_0010_0110_1101#16 = some (.ldwDp 13 38) ∧
    decodeHalf 0b1111_0110_0110_0110#16 = some (.stbDp 38 6) ∧
    decodeHalf 0b1111_1010_0110_0110#16 = some (.sthDp 38 6) ∧
    decodeHalf 0b1111_1110_0110_0110#16 = some (.stwDp 38 6) := by decide

/-- Rows 103 to 119 of the opcode table. -/
theorem test_decode_rows_103_to_119 :
    decodeHalf 0b0110_0010_0110_1101#16 = some (.addImm 13 38) ∧
    decodeHalf 0b0110_0110_0110_1101#16 = some (.subImm 13 38) ∧
    decodeHalf 0b0110_1010_0110_1101#16 = some (.cmpImm 13 38) ∧
    decodeHalf 0b0110_1110_0110_1101#16 = some (.ldwImm 13 38) ∧
    decodeHalf 0b0111_0010_0110_1101#16 = some (.andImm 13 38) ∧
    decodeHalf 0b0111_0110_0110_1101#16 = some (.orImm 13 38) ∧
    decodeHalf 0b0111_1010_0110_1101#16 = some (.xorImm 13 38) ∧
    decodeHalf 0b0111_1110_0110_1101#16 = some (.notImm 13 38) ∧
    decodeHalf 0b1000_0010_0000_0110#16 = some (.addSp 518) ∧
    decodeHalf 0b1000_0110_0000_0110#16 = some (.subSp 518) ∧
    decodeHalf 0b1000_1000_1101_1101#16 = some (.srlLow 13 13) ∧
    decodeHalf 0b1000_1001_0110_1101#16 = some (.srlReg 13 6) ∧
    decodeHalf 0b1000_1100_1101_1101#16 = some (.sllLow 13 13) ∧
    decodeHalf 0b1000_1101_0110_1101#16 = some (.sllReg 13 6) ∧
    decodeHalf 0b1001_0000_1101_1101#16 = some (.sraLow 13 13) ∧
    decodeHalf 0b1001_0001_0110_1101#16 = some (.sraReg 13 6) ∧
    decodeHalf 0b1001_0100_1101_1101#16 = some (.slaLow 13 13) := by decide

/-- Rows 120 to 136 of the opcode table. -/
theorem test_decode_rows_120_to_136 :
    decodeHalf 0b1001_0101_0110_1101#16 = some (.slaReg 13 6) ∧
    decodeHalf 0b1001_1000_1101_1101#16 = some (.rrLow 13 13) ∧
    decodeHalf 0b1001_1001_0110_1101#16 = some (.rrReg 13 6) ∧
    decodeHalf 0b1001_1100_1101_1101#16 = some (.rlLow 13 13) ∧
    decodeHalf 0b1001_1101_0110_1101#16 = some (.rlReg 13 6) ∧
    decodeHalf 0b1000_1010_0110_1101#16 = some (.scan0 13 6) ∧
    decodeHalf 0b1000_1110_0110_1101#16 = some (.scan1 13 6) ∧
    decodeHalf 0b1001_0010_0110_1101#16 = some (.swap 13 6) ∧
    decodeHalf 0b1001_0110_0110_1101#16 = some (.mirror 13 6) ∧
    decodeHalf 0b1001_1010_0110_1101#16 = some (.swaph 13 6) ∧
    decodeHalf 0b1001_1110_0110_1101#16 = some (.satB 13 6) ∧
    decodeHalf 0b1000_1011_1101_0000#16 = some (.div0s 13) ∧
    decodeHalf 0b1000_1111_1101_0000#16 = some (.div0u 13) ∧
    decodeHalf 0b1001_0011_1101_0000#16 = some (.div1 13) ∧
    decodeHalf 0b1001_0111_1101_0000#16 = some (.div2s 13) ∧
    decodeHalf 0b1001_1011_0000_0000#16 = some .div3s ∧
    decodeHalf 0b1001_1111_0110_1101#16 = some (.satUb 13 6) := by decide

/-- Rows 137 to 153 of the opcode table. -/
theorem test_decode_rows_137_to_153 :
    decodeHalf 0b1010_0000_0110_1101#16 = some (.ldwSd 13 6) ∧
    decodeHalf 0b1010_0001_0110_1101#16 = some (.ldbReg 13 6) ∧
    decodeHalf 0b1010_0010_0110_1101#16 = some (.mltH 13 6) ∧
    decodeHalf 0b1010_0011_0110_1101#16 = some (.mltHw 13 6) ∧
    decodeHalf 0b1010_0100_0110_1101#16 = some (.ldwSs 13 6) ∧
    decodeHalf 0b1010_0101_0110_1101#16 = some (.ldubReg 13 6) ∧
    decodeHalf 0b1010_0110_0110_1101#16 = some (.mltuH 13 6) ∧
    decodeHalf 0b1010_0111_0110_1101#16 = some (.mac1H 13 6) ∧
    decodeHalf 0b1010_1000_1101_0101#16 = some (.btst 13 5) ∧
    decodeHalf 0b1010_1001_0110_1101#16 = some (.ldhReg 13 6) ∧
    decodeHalf 0b1010_1010_0110_1101#16 = some (.mltW 13 6) ∧
    decodeHalf 0b1010_1011_0110_1101#16 = some (.mac1Hw 13 6) ∧
    decodeHalf 0b1010_1100_1101_0101#16 = some (.bclr 13 5) ∧
    decodeHalf 0b1010_1101_0110_1101#16 = some (.lduhReg 13 6) ∧
    decodeHalf 0b1010_1110_0110_1101#16 = some (.mltuW 13 6) ∧
    decodeHalf 0b1011_0000_1101_0101#16 = some (.bset 13 5) ∧
    decodeHalf 0b1011_0001_0110_1101#16 = some (.ldcRead 13 6) := by decide

/-- Rows 154 to 170 of the opcode table. -/
theorem test_decode_rows_154_to_170 :
    decodeHalf 0b1011_0010_1101_0000#16 = some (.mac 13) ∧
    decodeHalf 0b1011_0011_0110_1101#16 = some (.mac1W 13 6) ∧
    decodeHalf 0b1011_0100_1101_0101#16 = some (.bnot 13 5) ∧
    decodeHalf 0b1011_0101_1101_0110#16 = some (.ldcWrite 13 6) ∧
    decodeHalf 0b1011_0110_0110_1101#16 = some (.satH 13 6) ∧
    decodeHalf 0b1011_0111_0110_1101#16 = some (.satUh 13 6) ∧
    decodeHalf 0b1011_1000_0110_1101#16 = some (.adc 13 6) ∧
    decodeHalf 0b1011_1001_0110_1101#16 = some (.loopReg 13 6) ∧
    decodeHalf 0b1011_1010_0110_1101#16 = some (.loopRegImm 13 6) ∧
    decodeHalf 0b1011_1011_0110_1101#16 = some (.loopImm 13 6) ∧
    decodeHalf 0b1011_1100_0110_1101#16 = some (.sbc 13 6) ∧
    decodeHalf 0b1011_1101_0110_1101#16 = some (.satW 13 6) ∧
    decodeHalf 0b1011_1110_0110_1101#16 = some (.satUw 13 6) ∧
    decodeHalf 0b1011_1111_0010_0110#16 = some (.doC 38) ∧
    decodeHalf 0b1011_1111_0101_0110#16 = some (.psrset 22) ∧
    decodeHalf 0b1011_1111_1001_0110#16 = some (.psrclr 22) ∧
    decodeHalf 0b1101_0000_0000_0110#16 = some (.extImm 4102) := by decide

/-- Rows of section 2.13: code points that are not instructions. -/
theorem test_decode_unassigned :
    ([0x3B00, 0x3B10, 0x3B41, 0x3BE0, 0x3F01, 0xA808, 0xBF60] : List Half).map decodeHalf =
      List.replicate 7 none := by decide

/-- The two bytes of a code in the two byte orders (20_memory.md R87). -/
theorem test_decode_byte_order :
    decode false [0x10, 0x30, 0xAA] = .ok (.ldwInd 0 1, [0xAA]) ∧
      decode true [0x30, 0x10, 0xAA] = .ok (.ldwInd 0 1, [0xAA]) ∧ decode false [0x10] = .error .truncated :=
  ⟨rfl, rfl, rfl⟩

theorem test_decodeTableWord : decodeTableWord 16 0x2254 = some (.addReg 4 5) := by decide

/-! ## One step of each instruction

The start state of 95_test_vectors.md; a code is decoded and run, and some fields of the next state are compared. -/

/-- The default start state of 95_test_vectors.md. -/
def start : State := { State.reset with pc := 0x100, ssp := 0x3000, usp := 0x5000 }

/-- General registers set. -/
def regs (l : List (Nat × Nat)) (s : State) : State :=
  l.foldl (fun s x => s.setReg (BitVec.ofNat 4 x.1) (BitVec.ofNat 32 x.2)) s

/-- Words of memory set. -/
def words (l : List (Nat × Nat)) (s : State) : State :=
  l.foldl (fun s x => s.physWrite .word (BitVec.ofNat 32 x.1) (BitVec.ofNat 32 x.2)) s

/-- PSR set to a word of bits a supervisor may write. -/
def psr (v : Nat) (s : State) : State := { s with psr := Psr.zero.write true (BitVec.ofNat 32 v) }

/-- A view of the state the instruction with a code leaves, if it gives one. -/
def run {α : Type} (code : Half) (s : State) (view : State → α) : Option α :=
  (decodeHalf code).bind fun i =>
    match exec i s with
    | .next t => some (view t)
    | _ => none

/-- Why the instruction with a code stops, if it stops. -/
def stop (code : Half) (s : State) : Option Fault :=
  (decodeHalf code).bind fun i =>
    match exec i s with
    | .fault e => some e
    | _ => none

/-- A general register. -/
def r (n : Nat) (s : State) : Word := s.reg (BitVec.ofNat 4 n)

/-- A word of memory. -/
def w (a : Nat) (s : State) : Word := s.physRead .word (BitVec.ofNat 32 a)

/-- C, V, Z, N as four bits. -/
def cvzn (s : State) : Nat := s.psr.toWord.toNat % 16

/-- PSR as a number. -/
def p (s : State) : Nat := s.psr.toWord.toNat

/-! ### Data transfer: S20 to S26, section 2.1 -/

/-- The memory of section 2.1. -/
def data : List (Nat × Nat) := [(0x2000, 0x92345678), (0x2004, 0xA1B2C3D4)]

theorem test_ldbReg : run 0xA110 (regs [(1, 0x12345680)] start) (r 0) = some 0xFFFFFF80 := by decide
theorem test_ldubReg : run 0xA510 (regs [(1, 0x12345680)] start) (r 0) = some 0x80 := by decide
theorem test_ldhReg : run 0xA910 (regs [(1, 0x12348000)] start) (r 0) = some 0xFFFF8000 := by decide
theorem test_lduhReg : run 0xAD10 (regs [(1, 0x12348000)] start) (r 0) = some 0x8000 := by decide
theorem test_ldwReg : run 0x2E10 (regs [(1, 0x12348000)] start) (r 0) = some 0x12348000 := by decide
theorem test_ldwImm : run 0x6F00 start (r 0) = some 0xFFFFFFF0 := by decide
theorem test_ldwImm_two_prefixes :
    run 0x6C90 { start with ext := { Ext.empty with imm := [0x1234, 0x0567], count := 2 } } (r 0) = some 0x91A159C9 := by
  decide
theorem test_ldbInd : run 0x2010 (words data (regs [(1, 0x2003)] start)) (r 0) = some 0xFFFFFF92 := by decide
theorem test_ldubInd : run 0x2410 (words data (regs [(1, 0x2003)] start)) (r 0) = some 0x92 := by decide
theorem test_ldhInd : run 0x2810 (words data (regs [(1, 0x2002)] start)) (r 0) = some 0xFFFF9234 := by decide
theorem test_lduhInd : run 0x2C10 (words data (regs [(1, 0x2002)] start)) (r 0) = some 0x9234 := by decide
theorem test_ldwInd : run 0x3010 (words data (regs [(1, 0x2000)] start)) (r 0) = some 0x92345678 := by decide
theorem test_ldwInd_misaligned :
    run 0x3010 (words [(0x20000018, 0x801)] (regs [(0, 0x55), (1, 0x2002)] start))
      (fun t => (t.pc, r 0 t, t.ssp, w 0x2FFC t)) = some (0x800, 0x55, 0x2FF8, 0x100) := by decide
theorem test_ldbInc : run 0x2110 (words data (regs [(1, 0x2001)] start)) (fun t => (r 0 t, r 1 t)) =
    some (0x56, 0x2002) := by decide
theorem test_ldubInc : run 0x2510 (words data (regs [(1, 0x2000)] start)) (fun t => (r 0 t, r 1 t)) =
    some (0x78, 0x2001) := by decide
theorem test_ldhInc : run 0x2910 (words data (regs [(1, 0x2000)] start)) (fun t => (r 0 t, r 1 t)) =
    some (0x5678, 0x2002) := by decide
theorem test_lduhInc : run 0x2D10 (words data (regs [(1, 0x2002)] start)) (fun t => (r 0 t, r 1 t)) =
    some (0x9234, 0x2004) := by decide
theorem test_ldwInc : run 0x3110 (words data (regs [(1, 0x2000)] start)) (fun t => (r 0 t, r 1 t)) =
    some (0x92345678, 0x2004) := by decide
theorem test_ldwInc_same_register : run 0x3111 (words data (regs [(1, 0x2000)] start)) (r 1) = some 0x2004 := by decide
theorem test_stbInd : run 0x3410 (words data (regs [(0, 0xFFFFFFAB), (1, 0x2001)] start)) (w 0x2000) =
    some 0x9234AB78 := by decide
theorem test_sthInd : run 0x3810 (words data (regs [(0, 0xDEADBEEF), (1, 0x2002)] start)) (w 0x2000) =
    some 0xBEEF5678 := by decide
theorem test_stwInd : run 0x3C10 (words data (regs [(0, 0xDEADBEEF), (1, 0x2000)] start))
    (fun t => (w 0x2000 t, w 0x2004 t)) = some (0xDEADBEEF, 0xA1B2C3D4) := by decide
theorem test_stbInc : run 0x3510 (words data (regs [(0, 0xAB), (1, 0x2003)] start)) (fun t => (w 0x2000 t, r 1 t)) =
    some (0xAB345678, 0x2004) := by decide
theorem test_sthInc : run 0x3910 (words data (regs [(0, 0xBEEF), (1, 0x2000)] start)) (fun t => (w 0x2000 t, r 1 t)) =
    some (0x9234BEEF, 0x2002) := by decide
theorem test_stwInc_same_register : run 0x3D11 (regs [(1, 0x2000)] start) (fun t => (w 0x2000 t, r 1 t)) =
    some (0x2000, 0x2004) := by decide

/-- Loads from [%sp+imm6] and [%dp+imm6], scaled by the size (S2 to S4); 0x2000 is SP or DP. -/
theorem test_loads_base :
    let s := words [(0x2004, 0xA1B2C3D4), (0x2008, 0x81828384)] { start with ssp := 0x2000, dp := 0x2000 }
    [0x4050, 0x4450, 0x4830, 0x4C30, 0x5020, 0xE050, 0xE450, 0xE830, 0xEC30, 0xF020].map (fun c => run c s (r 0)) =
      [some 0xFFFFFFC3, some 0xC3, some 0xFFFFA1B2, some 0xA1B2, some 0x81828384,
        some 0xFFFFFFC3, some 0xC3, some 0xFFFFA1B2, some 0xA1B2, some 0x81828384] := by decide

theorem test_stbSp : run 0x5450 (words data (regs [(0, 0xEE)] { start with ssp := 0x2000 })) (w 0x2004) =
    some 0xA1B2EED4 := by decide
theorem test_sthSp : run 0x5BF0 (regs [(0, 0x11223344)] start) (w 0x307C) = some 0x33440000 := by decide
theorem test_stwSp : run 0x5C10 (regs [(0, 0x11223344)] start) (w 0x3004) = some 0x11223344 := by decide
theorem test_stwSp_user : run 0x5C00 (regs [(0, 0x600D)] (psr 0x1000 start)) (fun t => (w 0x5000 t, w 0x3000 t)) =
    some (0x600D, 0) := by decide
theorem test_stbDp : run 0xF450 (words data (regs [(0, 0xEE)] { start with dp := 0x2000 })) (w 0x2004) =
    some 0xA1B2EED4 := by decide
theorem test_sthDp : run 0xF830 (words data (regs [(0, 0xEEFF)] { start with dp := 0x2000 })) (w 0x2004) =
    some 0xEEFFC3D4 := by decide
theorem test_stwDp : run 0xFC10 (regs [(0, 0x11223344)] { start with dp := 0x2000 }) (w 0x2004) =
    some 0x11223344 := by decide
theorem test_ldwSs : run 0xA482 start (r 2) = some 0x20000000 := by decide
theorem test_ldwSs_pc : run 0xA4F8 start (r 8) = some 0x102 := by decide
theorem test_ldwSd_ttbr : run 0xA008 (regs [(0, 0x00C123FF)] start) (·.ttbr) = some 0x00C12000 := by decide
theorem test_ldwSd_psr_user : run 0xA000 (regs [(0, 0xFFFFFFFF)] (psr 0x1000 start)) p = some 0x7F7390CF := by decide

/-! ### Logic: section 2.2 -/

theorem test_andReg : run 0x3210 (psr 0x20000C (regs [(0, 0xF0F0F0F0), (1, 0x0F0F0F0F)] start))
    (fun t => (r 0 t, cvzn t)) = some (0, 0b1010) := by decide
theorem test_orReg : run 0x3610 (regs [(0, 0x80000000), (1, 1)] start) (fun t => (r 0 t, cvzn t)) =
    some (0x80000001, 0b0001) := by decide
theorem test_xorReg : run 0x3A33 (psr 0xC (regs [(3, 0x12345678)] start)) (fun t => (r 3 t, cvzn t)) =
    some (0, 0b1110) := by decide
theorem test_notReg : run 0x3E10 (regs [(0, 5), (1, 0xFFFFFFFF)] start) (fun t => (r 0 t, cvzn t)) =
    some (0, 0b0010) := by decide
theorem test_andImm : run 0x7200 (regs [(0, 0x123456FF)] start) (r 0) = some 0x123456E0 := by decide
theorem test_orImm : run 0x77F0 start (fun t => (r 0 t, cvzn t)) = some (0xFFFFFFFF, 0b0001) := by decide
theorem test_xorImm : run 0x79F0 (regs [(0, 0x1F)] start) (fun t => (r 0 t, cvzn t)) = some (0, 0b0010) := by decide
theorem test_notImm : run 0x7DF0 start (r 0) = some 0xFFFFFFE0 := by decide

/-! ### Arithmetic: section 2.3 -/

theorem test_addReg : run 0x2210 (regs [(0, 0x80000000), (1, 0x80000000)] start) (fun t => (r 0 t, cvzn t)) =
    some (0, 0b1110) := by decide
theorem test_addReg_overflow : run 0x2210 (regs [(0, 0x7FFFFFFF), (1, 1)] start) (fun t => (r 0 t, cvzn t)) =
    some (0x80000000, 0b0101) := by decide
theorem test_subReg : run 0x2610 (regs [(0, 0x7FFFFFFF), (1, 0xFFFFFFFF)] start) (fun t => (r 0 t, cvzn t)) =
    some (0x80000000, 0b1101) := by decide
theorem test_adc : run 0xB810 (psr 8 (regs [(0, 0xFFFFFFFF)] start)) (fun t => (r 0 t, cvzn t)) =
    some (0, 0b1010) := by decide
theorem test_sbc : run 0xBC10 (psr 8 (regs [(0, 0x80000000)] start)) (fun t => (r 0 t, cvzn t)) =
    some (0x7FFFFFFF, 0b0100) := by decide
theorem test_cmpReg : run 0x2A10 (regs [(0, 0x80000000), (1, 1)] start) (fun t => (r 0 t, cvzn t)) =
    some (0x80000000, 0b0100) := by decide
theorem test_addImm : run 0x63F0 (regs [(0, 0xFFFFFFC1)] start) (fun t => (r 0 t, cvzn t)) = some (0, 0b1010) := by
  decide
theorem test_subImm : run 0x67F0 (regs [(0, 0x3E)] start) (fun t => (r 0 t, cvzn t)) =
    some (0xFFFFFFFF, 0b1001) := by decide
theorem test_cmpImm : run 0x6BF0 (regs [(0, 0x3F)] start) cvzn = some 0b1000 := by decide
theorem test_addSp : run 0x83FF { start with ssp := 0xFFFFF800 } (·.ssp) = some 0x7FC := by decide
theorem test_subSp : run 0x8401 { start with ssp := 0 } (·.ssp) = some 0xFFFFFFFC := by decide
theorem test_addDp : run 0x0350 (psr 0xF (regs [(0, 0xFFFFFFFF)] { start with dp := 0x2000 }))
    (fun t => (r 0 t, cvzn t)) = some (0x1FFF, 0b1111) := by decide

/-! ### Multiply, divide, accumulate: sections 2.4 and 2.5 -/

theorem test_mltH : run 0xA210 (regs [(0, 0x12340003), (1, 0xABCDFFFE)] start) (·.alr) = some 0xFFFFFFFA := by decide
theorem test_mltuH : run 0xA610 (regs [(0, 0xFFFFFFFF), (1, 0xFFFFFFFF)] start) (·.alr) = some 0xFFFE0001 := by decide
theorem test_mltHw : run 0xA310 (regs [(0, 0x80000000), (1, 0x8000)] start) (fun t => (t.ahr, t.alr)) =
    some (0x4000, 0) := by decide
theorem test_mltW : run 0xAA10 (regs [(0, 0x7FFFFFFF), (1, 0xFFFFFFFF)] start) (fun t => (t.ahr, t.alr)) =
    some (0xFFFFFFFF, 0x80000001) := by decide
theorem test_mltuW_mirrors : run 0xAE10 (psr 0x30000 (regs [(0, 0x10000), (1, 0x30000), (4, 9)] start))
    (fun t => (t.ahr, t.alr, r 4 t, r 5 t)) = some (3, 0, 0, 3) := by decide
theorem test_divW : run 0x0251 (regs [(1, 5)] { start with alr := 0xFFFFFFF8 })
    (fun t => (t.alr, t.ahr, t.psr.ds, t.psr.n)) = some (0xFFFFFFFF, 0xFFFFFFFD, true, false) := by decide
theorem test_divW_least : run 0x0251 (regs [(1, 0xFFFFFFFF)] { start with alr := 0x80000000 })
    (fun t => (t.alr, t.ahr, t.psr.ds, t.psr.n)) = some (0x80000000, 0, true, true) := by decide
theorem test_divuW : run 0x0211 (psr 0x41 (regs [(1, 2)] { start with alr := 0xFFFFFFFF }))
    (fun t => (t.alr, t.ahr, p t)) = some (0x7FFFFFFF, 1, 0) := by decide
theorem test_divuW_by_zero : run 0x0211 (words [(0x20000010, 0x900)] start)
    (fun t => (t.pc, w 0x2FFC t, w 0x2FF8 t, t.ssp)) = some (0x900, 0x102, 0, 0x2FF8) := by decide
theorem test_div0s : run 0x8B10 (psr 1 (regs [(1, 6)] { start with alr := 0xFFFFFFEC }))
    (fun t => (t.ahr, t.alr, t.psr.ds, t.psr.n)) = some (0xFFFFFFFF, 0xFFFFFFEC, true, false) := by decide
theorem test_div0s_by_zero : run 0x8B10 (words [(0x20000010, 0x900)] { start with alr := 0x80000000 })
    (fun t => (t.pc, t.ahr, p t, w 0x2FFC t, w 0x2FF8 t)) = some (0x900, 0xFFFFFFFF, 0x40, 0x102, 0x40) := by decide
theorem test_div0u : run 0x8F10 (psr 0x41 (regs [(1, 6)] { start with alr := 20, ahr := 0x99 }))
    (fun t => (t.ahr, p t)) = some (0, 0) := by decide
theorem test_div1 : run 0x9310 (regs [(1, 6)] { start with ahr := 3, alr := 0x80000000 })
    (fun t => (t.ahr, t.alr)) = some (1, 1) := by decide
theorem test_div1_add : run 0x9310 (psr 0x40 (regs [(1, 6)] { start with ahr := 0xFFFFFFFF, alr := 0xFFFFFFEC }))
    (fun t => (t.ahr, t.alr)) = some (0xFFFFFFFF, 0xFFFFFFD8) := by decide
theorem test_div2s : run 0x9710 (psr 0x40 (regs [(1, 5)] { start with ahr := 0xFFFFFFFB, alr := 1 }))
    (fun t => (t.ahr, t.alr)) = some (0, 2) := by decide
theorem test_div3s : run 0x9B00 (psr 0x40 { start with alr := 3 }) (·.alr) = some 0xFFFFFFFD := by decide
theorem test_mac1H : run 0xA721 (regs [(1, 0xFFFF0003), (2, 0xFFFE)] { start with alr := 5 })
    (fun t => (t.ahr, t.alr, t.psr.mo)) = some (0xFFFFFFFF, 0xFFFFFFFF, false) := by decide
theorem test_mac1Hw : run 0xAB21 (regs [(1, 0x80000000), (2, 0x7FFF)] start) (fun t => (t.ahr, t.alr)) =
    some (0xFFFFC000, 0x80000000) := by decide
theorem test_mac1W : run 0xB321 (regs [(1, 0x7FFFFFFF), (2, 0x7FFFFFFF)]
    { start with ahr := 0x7FFFFFFF, alr := 0xFFFFFFFF }) (fun t => (t.ahr, t.alr, t.psr.mo)) =
    some (0xBFFFFFFF, 0, true) := by decide
theorem test_macclr : run 0x0190 (psr 0x8F { start with ahr := 1, alr := 2 }) (fun t => (t.ahr, t.alr, p t)) =
    some (0, 0, 0xF) := by decide
theorem test_mac : run 0xB200 (words [(0x2000, 0xFFFD0002), (0x2100, 0x00040003), (0x2004, 0x7FFF), (0x2104, 0x7FFF)]
    (regs [(0, 3), (1, 0x2000), (2, 0x2100)] start)) (fun t => (r 0 t, r 1 t, r 2 t, t.ahr, t.alr)) =
    some (0, 0x2006, 0x2106, 0, 0x3FFEFFFB) := by decide
theorem test_mac_odd_pointer : run 0xB200 (words [(0x20000018, 0x800)] (regs [(0, 2), (1, 0x2001), (2, 0x2100)] start))
    (fun t => (t.pc, r 0 t, r 1 t, w 0x2FFC t)) = some (0x800, 2, 0x2001, 0x100) := by decide
theorem test_macHw : run 0x0150 (words [(0x2000, 0xFFFFFFFE), (0x2004, 0x10000), (0x2100, 0x80000003)]
    (regs [(0, 2), (1, 0x2000), (2, 0x2100)] start)) (fun t => (r 1 t, r 2 t, t.ahr, t.alr)) =
    some (0x2008, 0x2104, 0xFFFFFFFF, 0x7FFFFFFA) := by decide
theorem test_macW : run 0x0110 (words [(0x2000, 0xFFFFFFFE), (0x2004, 0x10000), (0x2200, 5), (0x2204, 0x10000)]
    (regs [(0, 2), (1, 0x2000), (2, 0x2200)] start)) (fun t => (r 1 t, r 2 t, t.ahr, t.alr)) =
    some (0x2008, 0x2208, 0, 0xFFFFFFF6) := by decide

/-! ### Shift and rotate: section 2.6 -/

/-- The six register forms, count 4, on 0x87654321. -/
theorem test_shifts_register :
    [0x8960, 0x8D60, 0x9160, 0x9560, 0x9960, 0x9D60].map
      (fun c => run c (regs [(0, 0x87654321), (6, 4)] start) (r 0)) =
      [some 0x08765432, some 0x76543210, some 0xF8765432, some 0x76543210, some 0x18765432, some 0x76543218] := by decide

/-- The six codes for counts 16 to 31 with count 16, each on its own register holding 0x87654321. -/
theorem test_shifts_high :
    [(0x2300, 0), (0x2701, 1), (0x2B02, 2), (0x2F03, 3), (0x3304, 4), (0x3705, 5)].map
      (fun c => run c.1 (regs [(c.2, 0x87654321)] start) (r c.2)) =
      [some 0x00008765, some 0x43210000, some 0xFFFF8765, some 0x43210000, some 0x43218765, some 0x43218765] := by decide

/-- What the tests of immediate shifts look at, after a run with SE = 1. -/
def shifted (code : Half) (x : Nat) : Option (Word × Word × Nat) :=
  run code (psr 0x100000 (regs [(0, x)] start)) fun t => (r 0 t, t.sor, cvzn t)

theorem test_srlLow : shifted 0x8810 0x80000005 = some (0x40000002, 0x80000000, 0b1100) := by decide
theorem test_srlHigh : shifted 0x2340 0xFFFF0000 = some (0xFFF, 0xF0000000, 0b1100) := by decide
theorem test_sllLow : shifted 0x8C20 0xC0000001 = some (4, 3, 0b1100) := by decide
theorem test_sllHigh : shifted 0x27F0 1 = some (0x80000000, 0, 0b0101) := by decide
theorem test_sraLow : shifted 0x9010 0x80000005 = some (0xC0000002, 0x80000000, 0b1001) := by decide
theorem test_sraHigh : shifted 0x2BF0 0x80000000 = some (0xFFFFFFFF, 0, 0b0101) := by decide
theorem test_slaLow : shifted 0x9480 0x12345678 = some (0x34567800, 0x12, 0b0000) := by decide
theorem test_rrLow : shifted 0x9810 3 = some (0x80000001, 0x80000000, 0b1001) := by decide
theorem test_rrHigh : shifted 0x3300 0x12345678 = some (0x56781234, 0x56780000, 0b0000) := by decide
theorem test_rlLow : shifted 0x9C40 0x80000001 = some (0x18, 8, 0b0000) := by decide
theorem test_rlHigh : shifted 0x37F0 0x80000000 = some (0x40000000, 0x40000000, 0b0000) := by decide

/-! ### Bit operations and the stack: sections 2.7 and 2.8 -/

theorem test_btst : run 0xA807 (words [(0x2000, 0x80)] (psr 0xF (regs [(0, 0x2000)] start)))
    (fun t => (cvzn t, w 0x2000 t)) = some (0b1101, 0x80) := by decide
theorem test_bclr : run 0xAC03 (words [(0x2000, 0xFFFFFFFF)] (psr 0xF (regs [(0, 0x2001)] start)))
    (fun t => (cvzn t, w 0x2000 t)) = some (0b1111, 0xFFFFF7FF) := by decide
theorem test_bset : run 0xB007 (regs [(0, 0x2003)] start) (w 0x2000) = some 0x80000000 := by decide
theorem test_bnot : run 0xB405 (words [(0x2000, 0x5A)] (regs [(0, 0x2000)] start)) (w 0x2000) = some 0x7A := by decide
theorem test_push : run 0x0013 (regs [(3, 0xCAFE0003)] start) (fun t => (t.ssp, w 0x2FFC t)) =
    some (0x2FFC, 0xCAFE0003) := by decide
theorem test_push_user : run 0x0010 (psr 0x1000 (regs [(0, 0x77)] start)) (fun t => (t.usp, t.ssp, w 0x4FFC t)) =
    some (0x4FFC, 0x3000, 0x77) := by decide
theorem test_pop : run 0x0050 (words [(0x2FF8, 0x11), (0x2FFC, 0x22)] { start with ssp := 0x2FF8 })
    (fun t => (r 0 t, t.ssp)) = some (0x11, 0x2FFC) := by decide
theorem test_pushn : run 0x0203 (regs [(0, 0x10), (1, 0x11), (2, 0x12), (3, 0x13)] start)
    (fun t => (t.ssp, w 0x2FFC t, w 0x2FF8 t, w 0x2FF4 t, w 0x2FF0 t, p t)) =
    some (0x2FF0, 0x13, 0x12, 0x11, 0x10, 0) := by decide
theorem test_popn : run 0x0242 (words [(0x2FFC, 0xA2), (0x2FF8, 0xA1), (0x2FF4, 0xA0)] { start with ssp := 0x2FF4 })
    (fun t => (t.ssp, r 0 t, r 1 t, r 2 t)) = some (0x3000, 0xA0, 0xA1, 0xA2) := by decide
theorem test_pushs_lea : run 0x0096 { start with alr := 0xA, ahr := 0xB, lco := 0xC, lsa := 0x100, lea := 0x120 }
    (fun t => (t.ssp, w 0x2FFC t, w 0x2FF8 t, w 0x2FF4 t, w 0x2FF0 t, w 0x2FEC t)) =
    some (0x2FEC, 0x120, 0x100, 0xC, 0xB, 0xA) := by decide
theorem test_pushs_sp : run 0x0091 start (fun t => (t.ssp, w 0x2FFC t)) = some (0x2FFC, 0x3000) := by decide
theorem test_pops_lea : run 0x00D6 (words [(0x2FFC, 0x120), (0x2FF8, 0x100), (0x2FF4, 0xC), (0x2FF0, 0xB), (0x2FEC, 0xA)]
    { start with ssp := 0x2FEC }) (fun t => (t.alr, t.ahr, t.lco, t.lsa, t.lea, t.ssp)) =
    some (0xA, 0xB, 0xC, 0x100, 0x120, 0x3000) := by decide
theorem test_pops_psr : run 0x00D0 (words [(0x2FFC, 0xFFFFFFFF)] { start with ssp := 0x2FFC })
    (fun t => (p t, t.ssp, t.usp)) = some (0xEF739FDF, 0x3000, 0x5000) := by decide

/-! ### Branches: section 2.9 -/

/-- Which of the sixteen values of C, V, Z, N take the conditional jump with a code, sign8 = 0x10. -/
def taken (code : Half) : List Nat :=
  (List.range 16).filter fun k => decide (run code (psr k start) (·.pc) = some 0x120)

/-- The truth table of section 2.9. -/
theorem test_jr_signed :
    taken 0x0810 = [0, 5, 8, 13] ∧ taken 0x0A10 = [0, 2, 5, 7, 8, 10, 13, 15] ∧
      taken 0x0C10 = [1, 3, 4, 6, 9, 11, 12, 14] ∧ taken 0x0E10 = [1, 2, 3, 4, 6, 7, 9, 10, 11, 12, 14, 15] := by decide
theorem test_jr_unsigned :
    taken 0x1010 = [0, 1, 4, 5] ∧ taken 0x1210 = [0, 1, 2, 3, 4, 5, 6, 7] ∧
      taken 0x1410 = [8, 9, 10, 11, 12, 13, 14, 15] ∧
      taken 0x1610 = [2, 3, 6, 7, 8, 9, 10, 11, 12, 13, 14, 15] := by decide
theorem test_jr_equal :
    taken 0x1810 = [2, 3, 6, 7, 10, 11, 14, 15] ∧ taken 0x1A10 = [0, 1, 4, 5, 8, 9, 12, 13] := by decide
theorem test_jrne_backwards : run 0x1A80 start (·.pc) = some 0 := by decide
theorem test_jp_delayed : run 0x1F04 start (fun t => (t.pc, t.delay)) = some (0x102, some 0x108) := by decide
theorem test_jpReg : run 0x0685 (regs [(5, 0xFFFFFFFF)] start) (·.pc) = some 0xFFFFFFFE := by decide
theorem test_jpr : run 0x02C5 (regs [(5, 0xFFFFFF01)] start) (·.pc) = some 0 := by decide
theorem test_callRel : run 0x1C20 start (fun t => (t.pc, t.ssp, w 0x2FFC t)) = some (0x140, 0x2FFC, 0x102) := by decide
theorem test_callRel_delayed : run 0x1D20 start (fun t => (t.pc, t.delay, w 0x2FFC t)) =
    some (0x102, some 0x140, 0x104) := by decide
theorem test_callReg : run 0x0605 (regs [(5, 0x2345)] start) (fun t => (t.pc, w 0x2FFC t)) =
    some (0x2344, 0x102) := by decide
theorem test_ret : run 0x0640 (words [(0x2FFC, 0x4001)] { start with ssp := 0x2FFC }) (fun t => (t.pc, t.ssp)) =
    some (0x4000, 0x3000) := by decide
theorem test_slot_stops :
    stop 0x0000 { start with delay := some 0x108 } = some .prohibitedDelaySlot ∧
      run 0x6010 { start with delay := some 0x108 } (fun t => (t.pc, r 0 t)) = some (0x108, 1) := by decide

/-! ### Scan, swap, saturation: section 2.10 -/

theorem test_scan1 : run 0x8E01 (psr 0xF (regs [(0, 0x01000000)] start)) (fun t => (r 1 t, cvzn t)) =
    some (7, 0) := by decide
theorem test_scan1_word : run 0x8E01 (psr 0x400000 start) (fun t => (r 1 t, cvzn t)) = some (0x20, 0b1000) := by decide
theorem test_scan0 : run 0x8A01 (regs [(0, 0x7FFFFFFF)] start) (fun t => (r 1 t, cvzn t)) = some (0, 0b0010) := by decide
theorem test_scan0_word : run 0x8A01 (psr 0x400000 (regs [(0, 0xFFFFFFFE)] start)) (r 1) = some 0x1F := by decide
theorem test_swap : run 0x9210 (regs [(1, 0x87654321)] start) (r 0) = some 0x21436587 := by decide
theorem test_swaph : run 0x9A12 (regs [(1, 0x12345678)] start) (r 2) = some 0x34127856 := by decide
theorem test_mirror : run 0x9610 (regs [(1, 0x88442211)] start) (r 0) = some 0x11224488 := by decide

/-- The result and S of a saturation of a value. -/
def saturated (code : Half) (flags x : Nat) : Option (Word × Bool) :=
  run code (psr flags (regs [(0, x)] start)) fun t => (r 1 t, t.psr.s)

theorem test_satB : [0x7F, 0x80, 0xFFFFFF80, 0xFFFFFF7F].map (saturated 0x9E01 0) =
    [some (0x7F, false), some (0x7F, true), some (0xFFFFFF80, false), some (0xFFFFFF80, true)] := by decide
theorem test_satH : [0x7FFF, 0x8000, 0xFFFF8000, 0xFFFF7FFF].map (saturated 0xB601 0) =
    [some (0x7FFF, false), some (0x7FFF, true), some (0xFFFF8000, false), some (0xFFFF8000, true)] := by decide
theorem test_satUb : [0xFF, 0x100, 0x80000000].map (saturated 0x9F01 0) =
    [some (0xFF, false), some (0xFF, true), some (0xFF, true)] := by decide
theorem test_satUh : [0xFFFF, 0x10000].map (saturated 0xB701 0) = [some (0xFFFF, false), some (0xFFFF, true)] := by decide
theorem test_satW : [5, 4, 0].map (fun k => saturated 0xBD01 k 0x1234) =
    [some (0x7FFFFFFF, true), some (0x80000000, true), some (0x1234, false)] := by decide
theorem test_satUw : saturated 0xBE01 0 0x555 = some (0x555, false) ∧
    saturated 0xBE01 8 0xFEDBA987 = some (0xFFFFFFFF, true) := by decide
theorem test_nop : run 0x0000 (psr 0xF start) (fun t => (t.pc, p t)) = some (0x102, 0xF) := by decide

/-! ### Loop, repeat, system, coprocessor: sections 2.11 and 2.12 -/

/-- What the tests of loops and repeats look at. -/
def looping (code : Half) (s : State) : Option (Word × Word × Word × Nat × Word) :=
  run code s fun t => (t.lco, t.lsa, t.lea, p t, t.pc)

theorem test_loopRegImm : looping 0xBA35 (regs [(5, 7)] start) = some (7, 0x102, 0x108, 0x20000000, 0x102) := by decide
theorem test_loopReg : looping 0xB965 (regs [(5, 1), (6, 0x105)] start) =
    some (1, 0x102, 0x105, 0x20000000, 0x102) := by decide
theorem test_loopReg_single : stop 0xB965 (regs [(5, 1), (6, 0x102)] start) = some .singleInstructionLoop := by decide
theorem test_loopImm : looping 0xBB17 start = some (7, 0x102, 0x104, 0x20000000, 0x102) := by decide
theorem test_repeatReg : looping 0x0290 (regs [(0, 99)] start) = some (99, 0x102, 0, 0x40000000, 0x102) := by decide
theorem test_repeatImm : looping 0x02D5 start = some (5, 0x102, 0, 0x40000000, 0x102) := by decide
theorem test_psrset : run 0xBF4C start (fun t => (t.psr.sv, t.psr.ie, t.psr.n)) = some (true, false, false) ∧
    run 0xBF48 start (·.psr.il) = some 1 := by decide
theorem test_psrset_user : run 0xBF44 (psr 0x1000 start) (·.psr.ie) = some false := by decide
theorem test_psrclr : run 0xBF84 (psr 0x310 start) (fun t => (t.psr.ie, t.psr.il)) = some (false, 3) := by decide
theorem test_psrclr_user : run 0xBF8C (psr 0x1000 start) (·.psr.sv) = some true := by decide
theorem test_halt : run 0x0080 start (fun t => (t.run, t.pc)) = some (.halt, 0x102) ∧
    run 0x0080 (psr 0x1000 start) (·.run) = some .running := by decide
theorem test_slp : run 0x0040 start (fun t => (t.run, t.pc)) = some (.sleep, 0x102) := by decide
theorem test_ldcRead : run 0xB131 start (·.cop) = some [.read 3] := by decide
theorem test_ldcWrite : run 0xB552 (regs [(2, 0x1234)] start) (·.cop) = some [.write 5 0x1234] := by decide
theorem test_doC : run 0xBF1A start (·.cop) = some [.exec 0x1A] := by decide
theorem test_ldCf : run 0x01D0 { start with cop := [.exec 0x1A] } (·.cop) = some [.exec 0x1A] := by decide

/-! ### Prefixes: section 2.13 -/

theorem test_extImm_keeps_first_and_last :
    (((run 0xC001 start id).bind (run 0xC002 · id)).bind (run 0xC003 · (·.ext.imm))) = some [1, 3] := by decide
theorem test_extReg : (run 0x3F20 (regs [(1, 0xFF00FF00), (2, 0x0FF00FF0)] start) id).bind (run 0x3A10 · (r 0)) =
    some 0xF0F0F0F0 := by decide
theorem test_extReg_then_immediate : (run 0x3F10 start id).bind (stop 0xC001) = some .illegalExtSeries := by decide

/-- Rows S9, S15 (1): a register with a postshift; flags from the unshifted result. -/
theorem test_extReg_shifts :
    [0x3F25, 0x3F29, 0x3F2D].map
        (fun c => (run c (regs [(1, 0x7FFFFFFF), (2, 1)] start) id).bind (run 0x2210 · fun t => (r 0 t, cvzn t))) =
      [some (0xC0000000, 0b0101), some (0x40000000, 0b0101), some (0, 0b0101)] := by decide

/-- Row S10, and the other two operations. -/
theorem test_ext_shifts :
    [0x3B05, 0x3B09, 0x3B0D].map
        (fun c => (run c (regs [(4, 0x40000000), (5, 0x40000001)] start) id).bind (run 0x2254 · (r 4))) =
      [some 0xC0000000, some 0x40000000, some 2] := by decide

theorem test_ext_conditions :
    [0x3B40, 0x3B50, 0x3B60, 0x3B70, 0x3B80, 0x3B90, 0x3BA0, 0x3BB0, 0x3BC0, 0x3BD0].map
        (fun c => run c start (·.ext.cond)) =
      [some (some .gt), some (some .ge), some (some .lt), some (some .le), some (some .ugt), some (some .uge),
        some (some .ult), some (some .ule), some (some .eq), some (some .ne)] := by decide

/-- Which of the sixteen values of C, V, Z, N skip `ld.w %r4,%r5` under a condition. -/
def skipped (c : Cond) : List Nat :=
  (List.range 16).filter fun k =>
    decide (run 0x2E54 (psr k { regs [(5, 2)] start with ext := { Ext.empty with cond := some c, count := 1 } }) (r 4) =
      some 0)

/-- The truth table of section 2.9 again (R531). -/
theorem test_skips_signed :
    skipped .gt = [0, 5, 8, 13] ∧ skipped .ge = [0, 2, 5, 7, 8, 10, 13, 15] ∧
      skipped .lt = [1, 3, 4, 6, 9, 11, 12, 14] ∧ skipped .le = [1, 2, 3, 4, 6, 7, 9, 10, 11, 12, 14, 15] := by decide
theorem test_skips_unsigned :
    skipped .ugt = [0, 1, 4, 5] ∧ skipped .uge = [0, 1, 2, 3, 4, 5, 6, 7] ∧
      skipped .ult = [8, 9, 10, 11, 12, 13, 14, 15] ∧
      skipped .ule = [2, 3, 6, 7, 8, 9, 10, 11, 12, 13, 14, 15] := by decide
theorem test_skips_equal :
    skipped .eq = [2, 3, 6, 7, 10, 11, 14, 15] ∧ skipped .ne = [0, 1, 4, 5, 8, 9, 12, 13] := by decide

/-! ### Exceptions, fetch and reset: sections 2.14 and 2.15 -/

theorem test_int : run 0x0482 (words [(0x80038, 0x2000)]
    { psr 0xF1A start with pc := 0x1000, ssp := 0x4000, ttbr := 0x80000 })
    (fun t => (t.pc, p t, t.ssp, w 0x3FFC t, w 0x3FF8 t)) = some (0x2000, 0xF0A, 0x3FF8, 0x1002, 0xF1A) := by decide
theorem test_reti : run 0x04C0 (words [(0x2FF8, 0xFFFFFFFF), (0x2FFC, 0x4001)] { start with ssp := 0x2FF8 })
    (fun t => (t.pc, p t, t.ssp)) = some (0x4000, 0xFF739FDF, 0x3000) := by decide
theorem test_brk : run 0x0400 (words [(0x60000, 0x60100)] (regs [(0, 0x55)] { start with pc := 0xC00010 }))
    (fun t => (t.pc, p t, w 0x60008 t, w 0x6000C t, t.ssp)) = some (0x60100, 0x4000, 0xC00012, 0x55, 0x3000) := by decide
theorem test_retd : run 0x0440 (words [(0x60008, 0xC00012), (0x6000C, 0x55)]
    { start with psr := { Psr.zero with de := true } }) (fun t => (t.pc, p t, r 0 t)) = some (0xC00012, 0, 0x55) := by
  decide
theorem test_retm : run 0x06C0 (words [(0x18, 0xC00021), (0x1C, 0x77)]
    { start with psr := { Psr.zero with me := true } }) (fun t => (t.pc, p t, r 0 t, t.ssp)) =
    some (0xC00020, 0, 0x77, 0x3000) := by decide

/-- A view of the state one step leaves, if it leaves one. -/
def stepped {α : Type} (s : State) (view : State → α) : Option α :=
  match step s with
  | .next t => some (view t)
  | _ => none

theorem test_step_fetches : stepped (State.reset.withFetchWord 16 0x6C11) (fun t => (t.pc, r 1 t)) = some (2, 1) := by
  decide
theorem test_step_big_endian :
    stepped ({ State.reset with params := { Params.default with bigEndian := true } }.withFetchWord 16 0x6C11) (r 1) =
      some 1 := by decide

/-- A maskable request: vector 20, level 3. -/
def request : HostInput := { HostInput.none with request := some ⟨4, 3⟩ }

theorem test_interrupt :
    stepped (words [(0x20000050, 0xC01235)]
        { psr 0x1010 start with pc := 0xC00104, usp := 0x8000, inputs := [request] })
      (fun t => (t.pc, p t, t.ssp, t.usp, w 0x2FFC t, w 0x2FF8 t)) =
      some (0xC01234, 0x300, 0x2FF8, 0x8000, 0xC00104, 0x1010) := by decide

/-- Input: one kind of reset. -/
def resetInput (kind : ResetKind) : HostInput := { HostInput.none with reset := some kind }

theorem test_cold_reset :
    (stepped (words [(0x20000000, 0xC00001)]
        { psr 0xFF739FDF start with ttbr := 0xC00000, run := .halt, inputs := [resetInput .cold] }) id).bind
      (stepped · fun t => (t.pc, p t, t.ttbr, t.run, t.nmiMasked)) =
      some (0xC00000, 0, 0x20000000, .running, true) := by decide
theorem test_hot_reset :
    (stepped (words [(0xC00000, 0x80000)]
        { psr 0x1010 start with ttbr := 0xC00000, inputs := [resetInput .hot] }) id).bind
      (stepped · fun t => (t.pc, p t, t.ttbr)) = some (0x80000, 0, 0xC00000) := by decide

/-- A code fetched from a halfword stored just before runs as memory has it and is flagged (20_memory.md R104, D11). -/
theorem test_stale_fetch :
    (stepped (words [(0x100, 0x3810)] (regs [(0, 0x6C12), (1, 0x102)] start)) id).bind
      (stepped · fun t => (t.staleFetch, r 2 t)) = some (true, 1) := by decide

/-- A taken plain jump between the store and the fetch makes the store visible: no flag (20_memory.md R104). -/
theorem test_jump_makes_stores_visible :
    run 0x1E01 { start with stores := [0x102, 0x103] } (fun t => (t.stores, t.staleFetch)) = some ([], false) ∧
      run 0x1F01 { start with stores := [0x102] } (·.stores) = some [0x102] := by decide

/-- A fetch that misses saves the address being fetched, prefixes pending or not (60_exceptions.md R590). -/
theorem test_fetch_miss_with_prefix :
    stepped { start with
        ext := { Ext.empty with imm := [1], start := some 0xFE, count := 1 }
        params := { Params.default with translations := [⟨0, .fetch, false, none⟩] } }
      (fun t => (w 0x18 t, t.ext.count)) = some (0x100, 0) := by decide

/-- No interrupt inside an instruction with a prefix; without one it is taken (52_ext.md R534 a). -/
theorem test_prefixed_pushn_is_not_interrupted :
    run 0x0201 { psr 0x10 start with ext := { Ext.empty with imm := [1], count := 1 }, inputs := [request] }
      (fun t => (t.pc, t.ssp)) = some (0x102, 0x2FF8) ∧
    run 0x0201 { psr 0x10 start with inputs := [request] } (fun t => (t.pc, t.ssp)) = some (0, 0x2FF4) := by decide

/-- `int` and `brk` count in the read hazard windows (70_reset_and_hazards.md R642, R643). -/
theorem test_int_and_brk_count :
    run 0x0480 { start with dsWindow := 2, macWindow := 2 } (fun t => (t.dsWindow, t.macWindow)) = some (1, 1) ∧
    run 0x0400 { start with dsWindow := 2, macWindow := 2 } (fun t => (t.dsWindow, t.macWindow)) = some (1, 1) := by decide
/-! ## Witnesses: for each statement with hypotheses, states and operands that meet them, clause by clause -/

/-- Nothing keeps an instruction from its own effect in the start state. -/
theorem start_free (i : Instr) : start.Free i := free_of_plain rfl rfl rfl rfl i

/-- The start state with accesses of one kind to one page missing, in supervisor mode. -/
def missing (k : AccessKind) (page : BitVec 20) : State :=
  { start with params := { Params.default with translations := [⟨page, k, false, none⟩] } }

/-- The start state in an MMU handler, or in a debug handler. -/
def inMmu : State := { start with psr := { Psr.zero with me := true } }
def inDebug : State := { start with psr := { Psr.zero with de := true } }

/-- The start state with one element of input. -/
def given (i : HostInput) (s : State) : State := { s with inputs := [i] }

/-- A non-maskable request, and a debug break. -/
def nmiInput : HostInput := { HostInput.none with nmi := true }
def breakInput : HostInput := { HostInput.none with debugBreak := true }

theorem start_wellKept : start.WellKept where
  pc := by decide
  ssp := by decide
  usp := by decide
  dp := by decide
  ttbr := by decide
  delay := nofun
  imm := by decide
  mem := by decide

/-- The trap entry of a vector maps in the start state. -/
theorem start_entry (n : Nat) : EntryMaps start n 0x2FFC 0x2FF8 (vector start n) := ⟨by decide, by decide, rfl⟩

theorem witness_DecodeOfEncode :
    (Instr.srlLow 15 0).WellFormed ∧ (Instr.srlLow 0 15).WellFormed ∧ (Instr.rlHigh 15 16).WellFormed ∧
      (Instr.rlHigh 0 31).WellFormed ∧ (Instr.extImm 0x1FFF).WellFormed := by decide

theorem witness_EncodeOfDecode : decodeHalf 0x88F0 = some (.srlLow 0 15) ∧ decodeHalf 0x3700 = some (.rlHigh 0 16) := by
  decide

theorem witness_StepRunsDecoded :
    (start.run = .running ∧ start.translate .fetch start.pc = some 0x100 ∧
      decode start.params.bigEndian [start.byteAt 0x100, start.byteAt (0x100 + 1)] = .ok (.nop, []) ∧
      start.inputs = []) ∧
    ((given .none start).inputs = [.none] ∧ HostInput.none.reset = none ∧ start.boundaryEvent .none = none) :=
  ⟨⟨rfl, by decide, rfl, rfl⟩, rfl, rfl, by simp⟩

theorem witness_FetchStops :
    (let s := words [(0x100, 0x0001)] start
     s.run = .running ∧ s.inputs = [] ∧ s.translate .fetch s.pc = some 0x100 ∧
      decodeHalf (codeOfBytes s.params.bigEndian (s.byteAt 0x100) (s.byteAt (0x100 + 1))) = none) ∧
    (let s := { missing .fetch 0 with ext := { Ext.empty with imm := [1], start := some 0xFE, count := 1 } }
     s.run = .running ∧ s.inputs = [] ∧ s.translate .fetch s.pc = none ∧ s.psr.de = false) ∧
    (let s := { missing .fetch 0 with psr := { Psr.zero with de := true } }
     s.run = .running ∧ s.inputs = [] ∧ s.translate .fetch s.pc = none ∧ s.psr.de = true) := by decide

theorem witness_ResetDuringRun :
    ((given (resetInput .cold) start).inputs = [resetInput .cold] ∧ (resetInput .cold).reset = some .cold) ∧
    ((given (resetInput .hot) start).inputs = [resetInput .hot] ∧ (resetInput .hot).reset = some .hot) ∧
    (let s := { start with run := .reset }
     s.run = .reset ∧ s.inputs = [] ∧ s.translate .read (vector s 0) = some 0x20000000) ∧
    (let s := given request { start with run := .reset }
     s.run = .reset ∧ s.inputs = [request] ∧ request.reset = none ∧ s.translate .read (vector s 0) = some 0x20000000) ∧
    (let s := given request { missing .read 0x20000 with run := .reset }
     s.run = .reset ∧ s.inputs = [request] ∧ s.translate .read (vector s 0) = none ∧ s.psr.de = false) ∧
    (let s := { missing .read 0x20000 with run := .reset, psr := { Psr.zero with de := true } }
     s.run = .reset ∧ s.inputs = [] ∧ s.translate .read (vector s 0) = none ∧ s.psr.de = true) := by decide

theorem witness_StepKeepsWellKept : start.WellKept ∧ ∃ t, step start = .next t := ⟨start_wellKept, _, rfl⟩

theorem witness_StepKeepsParameters : ∃ t, step start = .next t := ⟨_, rfl⟩

theorem witness_UserModeIsolation :
    let s := psr 0x1000 start
    s.psr.sv = true ∧ s.psr.me = false ∧ (∃ t, exec .nop s = .next t) ∧ (∃ t, exec .reti s = .next t) ∧
      (∃ t, exec (.int 3) s = .next t) ∧
      ∃ t, exec (.pushn 1) (given (resetInput .hot) s) = .next t :=
  ⟨rfl, rfl, ⟨_, rfl⟩, ⟨_, rfl⟩, ⟨_, rfl⟩, ⟨_, rfl⟩⟩

theorem witness_HandlerModesEndByReturn :
    stepped (words [(0x100, 0x06C0)] inMmu) (fun t => (t.run, t.psr.me)) = some (.running, false) ∧
    stepped (words [(0x100, 0x0440)] inDebug) (fun t => (t.run, t.psr.de)) = some (.running, false) := by decide

theorem witness_Completion :
    ¬ (start.psr.rm = true ∧ start.pc = even start.lsa) ∧ ¬ (start.psr.lm = true ∧ start.pc = even start.lea) := by decide

/-- In a repeat at its target, with a count. -/
def repeating (n : Nat) : State := { psr 0x40000000 start with lsa := 0x100, lco := BitVec.ofNat 32 n }

/-- At the last instruction of a loop of two, with a count. -/
def inLoop (n : Nat) : State := { psr 0x20000000 start with lsa := 0xFE, lea := 0x101, lco := BitVec.ofNat 32 n }

theorem witness_RepeatAndLoopCheck :
    ((repeating 0).psr.rm = true ∧ (repeating 0).pc = even (repeating 0).lsa ∧ 2 ≤ (repeating 2).lco.toNat) ∧
    ((inLoop 0).psr.lm = true ∧ (inLoop 0).pc = even (inLoop 0).lea ∧
      ¬ ((inLoop 0).psr.rm = true ∧ (inLoop 0).pc = even (inLoop 0).lsa)) ∧
    ((inLoop 3).psr.lm = true ∧ (inLoop 3).psr.rm = false ∧ 3 = (inLoop 3).lco.toNat) := by decide

theorem witness_PlacementStops :
    (let s := { start with delay := some 0x108 }
     s.delay ≠ none ∧ mayFillSlot .nop = false) ∧
    ((repeating 1).delay = none ∧ (repeating 1).psr.rm = true ∧ (repeating 1).pc = even (repeating 1).lsa ∧
      unrepeatable .nop = true) ∧
    ((inLoop 1).delay = none ∧ (inLoop 1).psr.rm = false ∧ (inLoop 1).psr.lm = true ∧
      (inLoop 1).pc = even (inLoop 1).lea ∧ notAtLoopEnd .halt = true ∧ notNearLoopEnd (.jpRel true 0) = true) ∧
    (let s := { inLoop 1 with lea := 0x102 }
     s.pc = even s.lea - 2 ∧ notNearLoopEnd (.callReg true 0) = true) ∧
    (start.delay = none ∧ start.psr.rm = false ∧ start.psr.lm = false) := by decide

/-- A condition pending. -/
def under (c : Cond) : State := { start with ext := { Ext.empty with cond := some c, start := some 0xFE, count := 1 } }

theorem witness_ConditionalExecution :
    (under .ne).misplaced .nop = none ∧ (under .ne).ext.cond = some .ne ∧
    (isControl .nop || (branchForm .nop).isSome || isPrefix .nop) = false ∧
    conditionTrue .ne (under .ne).psr = true ∧ conditionTrue .eq (under .eq).psr = false ∧
    (under .ne).misplaced (.jpRel true 0) = none ∧
    (isControl (.jpRel true 0) || (branchForm (.jpRel true 0)).isSome || isPrefix (.jpRel true 0)) = true := by decide

theorem witness_TranslateRule :
    let e : Translation := ⟨2, .read, false, some 7⟩
    let named := fun (s : State) (a : Word) =>
      decide (e.page.toNat = a.toNat / 4096 ∧ e.kind = .read ∧ e.user = s.psr.sv)
    inMmu.psr.me = true ∧ start.psr.me = false ∧ (∀ x ∈ start.params.translations, x ≠ x) ∧
    named start 0x1FFF = false ∧ named start 0x2000 = true ∧ named start 0x2FFF = true ∧ named start 0x3000 = false := by
  decide

theorem witness_OperandForms :
    Ext.empty.imm = [] ∧ start.ext.imm = [] ∧
    ({ start with ext := { Ext.empty with imm := [0x1FFF] } } : State).ext.imm = [0x1FFF] ∧
    (0x1FFF#32).toNat = (0x1FFF#13).toNat ∧
    ({ start with ext := { Ext.empty with imm := [0x1000, 0] } } : State).ext.imm = [0x1000, 0] ∧
    (0x2000000#32).toNat = (0x1000#13).toNat * 8192 + (0#13).toNat := by decide

theorem witness_PrefixRecords :
    start.misplaced (.extImm 0) = none ∧ start.misplaced (.extReg 0) = none ∧ start.misplaced .extEq = none ∧
    (start.ext.imm = [] ∧ start.ext.rs = none ∧ start.ext.shift = none ∧ start.ext.count = 0) ∧
    (let s := { start with ext := { Ext.empty with rs := some 1, count := 1 } }
     s.misplaced (.extImm 0) = none ∧ ¬ (s.ext.rs = none ∨ (s.ext.shift ≠ none ∧ s.ext.cond = none)) ∧
      ¬ (s.ext.imm = [] ∧ s.ext.rs = none ∧ s.ext.shift = none) ∧ ¬ s.ext.count = 0) := by decide

theorem witness_RegisterMoves (i : Instr) : start.Free i := start_free i

theorem witness_ReadSpecialRegister :
    start.Free (.ldwSs 0 0) ∧ start.macWindow = 0 ∧
    (let s := { start with macWindow := 1 }
     s.Free (.ldwSs 0 3) ∧ 0 < s.macWindow) :=
  ⟨start_free _, rfl, free_of_plain rfl rfl rfl rfl _, by decide⟩

theorem witness_WriteSpecialRegister :
    start.Free (.ldwSd 4 0) ∧ ¬ (start.psr.lm = true ∨ start.psr.rm = true) ∧
    (let s := { psr 0x60000000 start with lsa := 0x200, lea := 0x200 }
     s.Free (.ldwSd 5 0) ∧ s.psr.lm = true ∧ s.psr.rm = true) :=
  ⟨start_free _, by decide, ⟨by decide, by decide⟩, by decide, by decide⟩

theorem witness_LoadsComplete :
    start.Free (.ldwInd 0 1) ∧ start.translate .read 0xFFFFFFFC = some 0xFFFFFFFC ∧ ¬ unaligned .word 0xFFFFFFFC ∧
    ¬ unaligned .half 0xFFFFFFFE ∧ start.translate .read (start.sp + start.ext.baseDisp .word 63) = some 0x30FC ∧
    (let s := regs [(1, 0xFFFFFFFC)] start
     ¬ unaligned .word (s.reg 1) ∧ s.translate .read (s.reg 1) = some 0xFFFFFFFC) :=
  ⟨start_free _, by decide, by unfold unaligned; decide, by unfold unaligned; decide, by decide,
    by unfold unaligned; decide, by decide⟩

theorem witness_StoresComplete :
    start.Free (.stwInd 0 1) ∧ start.translate .write 0xFFFFFFFC = some 0xFFFFFFFC ∧ ¬ unaligned .word 0xFFFFFFFC ∧
    ¬ unaligned .half 0xFFFFFFFE ∧ start.translate .write (start.dp + start.ext.baseDisp .byte 63) = some 63 :=
  ⟨start_free _, by decide, by unfold unaligned; decide, by unfold unaligned; decide, by decide⟩

theorem witness_AccessesNotPerformed :
    (let s := regs [(1, 0x2002)] start
     s.Free (.ldwInd 0 1) ∧ access s (.ldwInd 0 1) = some (.read, .word, 0x2002, true) ∧ unaligned .word 0x2002 ∧
      s.psr.me = false ∧ s.psr.de = false ∧ EntryMaps s 6 0x2FFC 0x2FF8 0x20000018) ∧
    (let s := regs [(1, 0x2001)] inDebug
     s.Free (.sthInc 1 0) ∧ access s (.sthInc 1 0) = some (.write, .half, 0x2001, true) ∧ unaligned .half 0x2001 ∧
      s.psr.de = true) ∧
    (let s := missing .write 2
     s.Free (.push 0) ∧ access s (.push 0) = some (.write, .word, 0x2FFC, false) ∧ s.translate .write 0x2FFC = none ∧
      s.psr.de = false) ∧
    (let s := { missing .read 0 with psr := { Psr.zero with de := true } }
     s.Free (.ldbInd 0 1) ∧ access s (.ldbInd 0 1) = some (.read, .byte, 0, true) ∧ ¬ unaligned .byte 0 ∧
      s.translate .read 0 = none ∧ s.psr.de = true) ∧
    (let s := missing .write 0
     s.Free (.bset 1 7) ∧ s.psr.de = false ∧ s.translate .read (s.reg 1 + s.ext.immDisp) ≠ none ∧
      s.translate .write (s.reg 1 + s.ext.immDisp) = none) ∧
    (let s := { missing .read 1 with ssp := 0x1FFC }
     s.Free .reti ∧ s.translate .read (s.ssp + 4) ≠ none ∧ s.translate .read s.ssp = none) :=
  ⟨⟨free_of_plain rfl rfl rfl rfl _, by decide, by unfold unaligned; decide, rfl, rfl, by decide, by decide, by decide⟩,
    ⟨free_of_plain rfl rfl rfl rfl _, by decide, by unfold unaligned; decide, rfl⟩,
    ⟨free_of_plain rfl rfl rfl rfl _, by decide, by decide, rfl⟩,
    ⟨free_of_plain rfl rfl rfl rfl _, by decide, by unfold unaligned; decide, by decide, rfl⟩,
    ⟨free_of_plain rfl rfl rfl rfl _, rfl, by decide, by decide⟩,
    ⟨free_of_plain rfl rfl rfl rfl _, by decide, by decide⟩⟩

theorem nothing_disturbs {s : State} (h : s.inputs = []) (k : Nat) : Undisturbed s k := by
  intro i hi
  rw [h, List.take_nil] at hi
  cases hi

/-- The passes of mac: a misaligned first or second operand before any pass, and a miss after one pass. -/
theorem witness_AccessesNotPerformed_mac :
    (let s := regs [(0, 1), (1, 0x2001), (2, 0x2100)] start
     s.Free (.mac 0) ∧ macForm (.mac 0) = some (0, .half, .half) ∧ CounterKept s 0 ∧ 0 < (s.reg 0).toNat ∧
      Undisturbed s 0 ∧ macSteps 0 .half .half 0 s = some s ∧ macFailure s 0 .half .half = some true ∧
      EntryMaps s 6 0x2FFC 0x2FF8 0x20000018) ∧
    (let s := regs [(0, 1), (1, 0x2000), (2, 0x2102)] start
     macSteps 0 .word .word 0 s = some s ∧ macFailure s 0 .word .word = some true) ∧
    (let s := regs [(0, 2), (1, 0x2FFE), (2, 0x2100)] (missing .read 3)
     s.Free (.mac 0) ∧ CounterKept s 0 ∧ 1 < (s.reg 0).toNat ∧ Undisturbed s 1 ∧
      ∃ u, macSteps 0 .half .half 1 s = some u ∧ macFailure u 0 .half .half = some false) :=
  ⟨⟨free_of_plain rfl rfl rfl rfl _, rfl, ⟨nofun, nofun⟩, by decide, nothing_disturbs rfl _, rfl, by decide, by decide,
    by decide, by decide⟩, ⟨rfl, by decide⟩,
    free_of_plain rfl rfl rfl rfl _, ⟨nofun, nofun⟩, by decide, nothing_disturbs rfl _, _, rfl, by decide⟩

/-- The successive pushes and pops: a miss after one word. -/
theorem witness_AccessesNotPerformed_stack :
    (let s := { missing .write 1 with ssp := 0x2004 }
     s.Free (.pushn 15) ∧ MayStart (.pushn 15) s ∧ sequence s (.pushn 15) = (15, 16) ∧ Undisturbed s 1 ∧
      ∃ u, partsDone (.pushn 15) 15 1 s = some u ∧ u.translate .write (u.sp - 4) = none) ∧
    (let s := { missing .write 1 with ssp := 0x2004 }
     s.Free (.pushs 15) ∧ MayStart (.pushs 15) s ∧ sequence s (.pushs 15) = (15, 14) ∧
      ∃ u, partsDone (.pushs 15) 15 1 s = some u ∧ u.translate .write (u.sp - 4) = none) ∧
    (let s := { missing .read 3 with ssp := 0x2FFC }
     s.Free (.popn 1) ∧ MayStart (.popn 1) s ∧ sequence s (.popn 1) = (0, 2) ∧
      ∃ u, partsDone (.popn 1) 0 1 s = some u ∧ u.translate .read u.sp = none) ∧
    (let s := { missing .read 3 with ssp := 0x2FFC }
     s.Free (.pops 15) ∧ MayStart (.pops 15) s ∧ sequence s (.pops 15) = (2, 14) ∧
      ∃ u, partsDone (.pops 15) 2 1 s = some u ∧ u.translate .read u.sp = none) ∧
    (let s := missing .write 2
     s.Free (.pushs 0) ∧ s.psr.pm = false ∧ s.macWindow = 0 ∧ s.translate .write (s.sp - 4) = none) ∧
    (let s := missing .read 3
     s.Free (.pops 1) ∧ s.psr.pm = false ∧ s.translate .read s.sp = none) :=
  ⟨⟨free_of_plain rfl rfl rfl rfl _, trivial, rfl, nothing_disturbs rfl _, _, rfl, by decide⟩,
    ⟨free_of_plain rfl rfl rfl rfl _, rfl, rfl, _, rfl, by decide⟩,
    ⟨free_of_plain rfl rfl rfl rfl _, trivial, rfl, _, rfl, by decide⟩,
    ⟨free_of_plain rfl rfl rfl rfl _, fun _ => ⟨rfl, rfl⟩, rfl, _, rfl, by decide⟩,
    ⟨free_of_plain rfl rfl rfl rfl _, rfl, rfl, by decide⟩, free_of_plain rfl rfl rfl rfl _, rfl, by decide⟩

theorem witness_AdditionSubtraction (i : Instr) : start.Free i := start_free i

theorem witness_ConditionsAfterCompare :
    start.Free (jr .gt true 0x80) ∧ start.Free (.cmpReg 0 1) ∧ start.ext.imm = [] ∧
    ∃ t, exec (.cmpReg 0 1) start = .next t ∧ t.misplaced .nop = none ∧ isControl .nop = false ∧
      branchForm .nop = none ∧ isPrefix .nop = false :=
  ⟨start_free _, start_free _, rfl, _, rfl, by decide, rfl, rfl, rfl⟩

theorem witness_LogicOperations (i : Instr) : start.Free i := start_free i

theorem witness_ShiftsAndRotates (i : Instr) : start.Free i := start_free i

theorem witness_BitOperations :
    start.translate .read (start.reg 0 + start.ext.immDisp) = some 0 ∧
    start.translate .write (start.reg 0 + start.ext.immDisp) = some 0 ∧ start.Free (.btst 0 0) ∧ start.Free (.bnot 0 7) :=
  ⟨by decide, by decide, start_free _, start_free _⟩

theorem witness_Multiplication (i : Instr) : start.Free i := start_free i

theorem witness_DivisionSteps :
    let s := regs [(1, 1)] start
    s.Free (.div0s 1) ∧ s.reg 1 ≠ 0 ∧ s.Free (.div1 1) :=
  ⟨free_of_plain rfl rfl rfl rfl _, by decide, free_of_plain rfl rfl rfl rfl _⟩

theorem witness_WholeDivision :
    let s := { regs [(1, 0xFFFFFFFF)] start with alr := 0x80000000 }
    s.Free (.divW 1) ∧ s.reg 1 ≠ 0 ∧
    (s.alr.toInt = 2147483648 * (s.reg 1).toInt + 0 ∧ (0 : Int).natAbs < (s.reg 1).toInt.natAbs ∧ 0 ≤ 0 * s.alr.toInt) ∧
    (s.alr.toNat = 0 * (s.reg 1).toNat + 2147483648 ∧ 2147483648 < (s.reg 1).toNat) :=
  ⟨free_of_plain rfl rfl rfl rfl _, by decide, by decide, by decide⟩

theorem witness_ZeroDivisionTraps :
    start.Free (.div0s 1) ∧ start.Free (.divuW 1) ∧ start.reg 1 = 0 ∧ start.psr.me = false ∧ start.psr.de = false ∧
    EntryMaps start 4 0x2FFC 0x2FF8 (vector start 4) ∧ inMmu.Free (.divW 1) ∧ inMmu.reg 1 = 0 ∧ inMmu.psr.me = true :=
  ⟨start_free _, start_free _, by decide, rfl, rfl, start_entry 4, free_of_plain rfl rfl rfl rfl _, by decide, rfl⟩

theorem witness_UnsignedStepDivision :
    let s := { psr 0x30000 (regs [(1, 5)] start) with alr := 0xFFFFFFFF }
    s.ext = Ext.empty ∧ s.delay = none ∧ s.psr.rm = false ∧ s.psr.lm = false ∧ s.psr.lc = true ∧ s.psr.hc = true ∧
      s.reg 1 ≠ 0 := by decide

theorem witness_SingleAccumulation (i : Instr) : start.Free i := start_free i

/-- Two passes of `mac` on readable operands. -/
def macs : State := regs [(0, 2), (1, 0x2000), (2, 0x2100)] start

theorem witness_RepeatedAccumulation :
    (∀ i rs z1 z2, macForm i = some (rs, z1, z2) → macs.Free i) ∧ CounterKept macs 0 ∧ Undisturbed macs 1 ∧
    (∃ u, macSteps 0 .half .half (macs.reg 0).toNat macs = some u) ∧
    (∃ u, macSteps 0 .word .half (macs.reg 0).toNat macs = some u) ∧
    (∃ u, macSteps 0 .word .word (macs.reg 0).toNat macs = some u) ∧
    (start.reg 4 = 0 ∧ ∃ u, macSteps 4 .word .word (start.reg 4).toNat start = some u) :=
  ⟨fun _ _ _ _ _ => free_of_plain rfl rfl rfl rfl _, ⟨nofun, nofun⟩, nothing_disturbs rfl _,
    Option.isSome_iff_exists.mp (by decide), Option.isSome_iff_exists.mp (by decide),
    Option.isSome_iff_exists.mp (by decide), by decide, Option.isSome_iff_exists.mp (by decide)⟩

theorem witness_PushAndPop :
    start.Free (.push 15) ∧ start.translate .write (start.sp - 4) = some 0x2FFC ∧ start.Free (.pop 15) ∧
    start.translate .read start.sp = some 0x3000 :=
  ⟨start_free _, by decide, start_free _, by decide⟩

/-- A push or pop interrupted before register 3, resumed. -/
def resumed : State := psr 0x13000000 start

theorem witness_PushAndPopRegisters :
    start.Free (.pushn 15) ∧ sequence start (.pushn 15) = (15, 16) ∧ Undisturbed start 15 ∧ start.sp.toNat % 4 = 0 ∧
    (∃ u, partsDone (.pushn 15) 15 16 start = some u) ∧
    (sequence start (.popn 15) = (0, 16) ∧ ∃ u, partsDone (.popn 15) 0 16 start = some u) ∧
    (sequence start (.popn 0) = (0, 1) ∧ ∃ u, partsDone (.popn 0) 0 1 start = some u) ∧
    (sequence resumed (.pushn 7) = (3, 4) ∧ (∃ u, partsDone (.pushn 7) 3 4 resumed = some u) ∧
      sequence resumed (.popn 15) = (3, 13) ∧ ∃ u, partsDone (.popn 15) 3 13 resumed = some u) :=
  ⟨start_free _, rfl, nothing_disturbs rfl _, by decide, Option.isSome_iff_exists.mp (by decide),
    ⟨rfl, Option.isSome_iff_exists.mp (by decide)⟩, ⟨rfl, Option.isSome_iff_exists.mp (by decide)⟩, rfl,
    Option.isSome_iff_exists.mp (by decide), rfl, Option.isSome_iff_exists.mp (by decide)⟩

theorem witness_PushAndPopSpecials :
    start.macWindow = 0 ∧ start.psr.pm = false ∧ Undisturbed start 13 ∧
    (∃ u, push1 (specialRead start 1).1 (specialRead start 1).2 = some u) ∧
    (sequence start (.pushs 2) = (2, 1) ∧ MayStart (.pushs 2) start ∧ ∃ u, partsDone (.pushs 2) 2 1 start = some u) ∧
    (sequence start (.pushs 15) = (15, 14) ∧ ∃ u, partsDone (.pushs 15) 15 14 start = some u) ∧
    (let s := { start with macWindow := 2 }
     0 < s.macWindow ∧ s.Free (.pushs 0) ∧ ∃ u, push1 (specialRead s 1).1 (specialRead s 1).2 = some u) ∧
    (∃ u, pop1 start (fun v t => some (t.writePsr v)) = some u) ∧ (∃ u, pop1 start (fun _ t => some t) = some u) ∧
    (sequence start (.pops 2) = (2, 1) ∧ MayStart (.pops 2) start ∧ ∃ u, partsDone (.pops 2) 2 1 start = some u) ∧
    (sequence start (.pops 15) = (2, 14) ∧ MayStart (.pops 15) start ∧ ∃ u, partsDone (.pops 15) 2 14 start = some u) ∧
    (let s := { psr 0x20000000 start with lsa := 0x200, lea := 0x200 }
     s.psr.lm = true ∧ s.Free (.pops 4)) ∧
    (sequence resumed (.pops 9) = (3, 7) ∧ ∃ u, partsDone (.pops 9) 3 7 resumed = some u) :=
  ⟨rfl, rfl, nothing_disturbs rfl _, ⟨_, rfl⟩, ⟨rfl, rfl, _, rfl⟩, ⟨rfl, Option.isSome_iff_exists.mp (by decide)⟩,
    ⟨by decide, free_of_plain rfl rfl rfl rfl _, _, rfl⟩, ⟨_, rfl⟩, ⟨_, rfl⟩, ⟨rfl, fun _ => ⟨rfl, rfl⟩, _, rfl⟩,
    ⟨rfl, fun _ => ⟨rfl, rfl⟩, Option.isSome_iff_exists.mp (by decide)⟩, ⟨rfl, by decide, by decide⟩, rfl,
    Option.isSome_iff_exists.mp (by decide)⟩

/-- The request of the tests is accepted where the interrupt level allows it. -/
theorem request_taken {s : State} {ret p1 p2 p3 : Word} (hi : s.psr.ie = true) (hl : s.psr.il.toNat < 3)
    (h : EntryMaps s 20 p1 p2 p3) : Takes request s ret (entered s (some 3) false ret p1 p2 p3) := by
  have h1 : ¬ request.debugBreak = true := nofun
  have h2 : ¬ (request.nmi = true ∧ s.nmiMasked = false ∧ s.nmiInService = false) := fun e => nomatch e.1
  rw [Takes, if_neg h1, if_neg h2]
  exact ⟨⟨4, 3⟩, p1, p2, p3, rfl, hi, hl, h, rfl⟩

theorem break_taken (s : State) (ret : Word) : Takes breakInput s ret (debugEntered s ret) := by
  rw [Takes, if_pos (show breakInput.debugBreak = true from rfl)]

/-- The start state with interrupts enabled and one input. -/
def interrupted (i : HostInput) : State := given i (psr 0x10 start)

theorem witness_InterruptedSequenceResumes :
    ((interrupted request).Free (.pushn 1) ∧ MayStart (.pushn 1) (interrupted request) ∧
      sequence (interrupted request) (.pushn 1) = (1, 2) ∧ (interrupted request).ext.count = 0 ∧
      (interrupted request).psr.me = false ∧ (interrupted request).psr.de = false ∧ Undisturbed (interrupted request) 0 ∧
      (interrupted request).inputs.drop 0 = [request] ∧ request.reset = none ∧
      ∃ u t, partsDone (.pushn 1) 1 1 (interrupted request) = some u ∧
        Takes request (marked { u with inputs := [] } (partNumber (.pushn 1) 1 1)) 0x100 t) ∧
    ((interrupted breakInput).Free (.pops 15) ∧ MayStart (.pops 15) (interrupted breakInput) ∧
      sequence (interrupted breakInput) (.pops 15) = (2, 14) ∧ breakInput.reset = none ∧
      ∃ u t, partsDone (.pops 15) 2 1 (interrupted breakInput) = some u ∧
        Takes breakInput (marked { u with inputs := [] } (partNumber (.pops 15) 2 1)) 0x100 t) ∧
    (start.Free (.popn 15) ∧ MayStart (.popn 15) start ∧ sequence start (.popn 15) = (0, 16) ∧ start.inputs = [] ∧
      (∃ u, partsDone (.popn 15) 0 15 start = some u) ∧ ∃ v, partsDone (.popn 15) 0 16 start = some v) ∧
    (let s := { macs with inputs := [breakInput] }
     s.Free (.mac 0) ∧ CounterKept s 0 ∧ s.ext.count = 0 ∧ s.psr.me = false ∧ s.psr.de = false ∧
      0 + 1 < (s.reg 0).toNat ∧ Undisturbed s 0 ∧ s.inputs.drop 0 = [breakInput] ∧
      ∃ u t, macSteps 0 .half .half 1 s = some u ∧ Takes breakInput { u with inputs := [] } s.pc t) ∧
    (macs.Free (.macW 0) ∧ CounterKept macs 0 ∧ macs.inputs = [] ∧ 1 < (macs.reg 0).toNat ∧
      ∃ u, macSteps 0 .word .word 1 macs = some u) :=
  ⟨⟨free_of_plain rfl rfl rfl rfl _, trivial, rfl, rfl, rfl, rfl, fun _ h => (nomatch h), rfl, rfl, _, _, rfl,
      request_taken (p1 := 0x2FF8) (p2 := 0x2FF4) (p3 := 0x20000050) rfl (by decide) ⟨by decide, by decide, by decide⟩⟩,
    ⟨free_of_plain rfl rfl rfl rfl _, fun _ => ⟨rfl, rfl⟩, rfl, rfl, _, _, rfl, break_taken _ _⟩,
    ⟨start_free _, trivial, rfl, rfl, Option.isSome_iff_exists.mp (by decide), Option.isSome_iff_exists.mp (by decide)⟩,
    ⟨free_of_plain rfl rfl rfl rfl _, ⟨nofun, nofun⟩, rfl, rfl, rfl, by decide, fun _ h => (nomatch h), rfl, _, _, rfl,
      break_taken _ _⟩,
    free_of_plain rfl rfl rfl rfl _, ⟨nofun, nofun⟩, rfl, by decide, Option.isSome_iff_exists.mp (by decide)⟩

theorem witness_JumpsCallsReturn :
    start.Free (.jpRel true 0x7F) ∧ start.Free (.callReg false 0) ∧ start.translate .write (start.sp - 4) = some 0x2FFC ∧
    start.Free (.ret true) ∧ start.translate .read start.sp = some 0x3000 :=
  ⟨start_free _, start_free _, by decide, start_free _, by decide⟩

theorem witness_ScanPositions (i : Instr) : start.Free i := start_free i

theorem witness_SwapAndMirror (i : Instr) : start.Free i := start_free i

theorem witness_Saturation (i : Instr) : start.Free i := start_free i

theorem witness_LoopAndRepeatBegin :
    let s := regs [(1, 0x104), (2, 0x103)] start
    s.Free (.loopReg 0 1) ∧ even (s.reg 1) ≠ s.pc + 2 ∧ even (s.reg 2) = s.pc + 2 ∧
    even (s.pc + 2 + BitVec.ofNat 32 (2 * 1)) ≠ s.pc + 2 ∧ even (s.pc + 2 + BitVec.ofNat 32 (2 * 0)) = s.pc + 2 :=
  ⟨free_of_plain rfl rfl rfl rfl _, by decide, by decide, by decide, by decide⟩

theorem witness_PowerDownAndWake :
    (start.Free .halt ∧ start.psr.sv = false ∧
      (psr 0x1000 start).Free .slp ∧ (psr 0x1000 start).psr.sv = true ∧ (psr 0x1000 start).psr.he = false) ∧
    (let s := { start with run := .halt }
     s.run = .halt ∧ s.inputs = []) ∧
    (let s := given nmiInput { start with run := .sleep, nmiMasked := false }
     s.run = .sleep ∧ s.inputs = [nmiInput] ∧ nmiInput.reset = none ∧ s.psr.me = false ∧ s.psr.de = false ∧
      nmiInput.nmi = true ∧ s.nmiMasked = false ∧ s.nmiInService = false ∧
      EntryMaps { s with inputs := [] } 7 0x2FFC 0x2FF8 0x2000001C) ∧
    (let s := given request { psr 0x210 start with run := .halt }
     s.inputs = [request] ∧ request.nmi = false ∧ request.request = some ⟨4, 3⟩ ∧ s.psr.ie = true ∧
      s.psr.il.toNat < (3 : BitVec 4).toNat ∧ EntryMaps { s with inputs := [] } 20 0x2FFC 0x2FF8 0x20000050) ∧
    (let s := given request { psr 0x310 start with run := .halt }
     s.inputs = [request] ∧ ¬ s.psr.il.toNat < (3 : BitVec 4).toNat) :=
  ⟨⟨start_free _, rfl, free_of_plain rfl rfl rfl rfl _, rfl, rfl⟩, ⟨rfl, rfl⟩,
    ⟨rfl, rfl, rfl, rfl, rfl, rfl, rfl, rfl, by decide, by decide, by decide⟩,
    ⟨rfl, rfl, rfl, rfl, by decide, by decide, by decide, by decide⟩, rfl, by decide⟩

theorem witness_PsrBitOperations (i : Instr) : start.Free i := start_free i

theorem witness_Coprocessor (i : Instr) : start.Free i := start_free i

theorem witness_TrapEntry :
    EntryMaps start (0 : BitVec 8).toNat 0x2FFC 0x2FF8 0x20000000 ∧
      EntryMaps start (255 : BitVec 8).toNat 0x2FFC 0x2FF8 0x200003FC :=
  ⟨⟨by decide, by decide, by decide⟩, by decide, by decide, by decide⟩

theorem witness_SoftwareException :
    start.Free (.int 3) ∧ start.psr.me = false ∧ start.psr.de = false ∧
      EntryMaps start (12 + (3 : BitVec 2).toNat) 0x2FFC 0x2FF8 (vector start 15) ∧
      inDebug.Free (.int 0) ∧ inDebug.psr.de = true :=
  ⟨start_free _, rfl, rfl, start_entry 15, free_of_plain rfl rfl rfl rfl _, rfl⟩

theorem witness_ReturnFromTrap :
    start.Free .reti ∧ start.translate .read (start.ssp + 4) = some 0x3004 ∧
      start.translate .read start.ssp = some 0x3000 :=
  ⟨start_free _, by decide, by decide⟩

theorem witness_ReturnRestoresContext :
    start.psr.me = false ∧ start.psr.de = false ∧
    EntryMaps start (15 : BitVec 8).toNat 0x2FFC 0x2FF8 (vector start 15) ∧ even 0x102#32 = 0x102#32 ∧
    4 ≤ (0x2FFC#32 - 0x2FF8#32).toNat ∧ 4 ≤ (0x2FF8#32 - 0x2FFC#32).toNat ∧
    (∀ level nmi,
      let h := entered start level nmi 0x102 0x2FFC 0x2FF8 (vector start 15)
      h.translate .read (h.ssp + 4) = some 0x2FFC ∧ h.translate .read h.ssp = some 0x2FF8) ∧
    start.psr.rm = false ∧ start.psr.lm = false :=
  ⟨rfl, rfl, start_entry 15, by decide, by decide, by decide, fun _ _ => ⟨rfl, rfl⟩, rfl, rfl⟩

theorem witness_DebugException :
    (let s := { start with delay := some 0x108 }
     s.delay ≠ none) ∧
    start.misplaced .brk = none ∧ start.psr.me = false ∧ start.psr.de = false ∧
    inMmu.misplaced .brk = none ∧ inMmu.psr.me = true ∧ inDebug.misplaced .retd = none ∧
    8 ≤ (debugBase start + 16 - (debugBase start + 8)).toNat := by decide

theorem witness_MmuException :
    (let s := { start with delay := some 0x108 }
     s.delay ≠ none) ∧
    inMmu.misplaced .retm = none ∧ start.psr.de = false ∧ 8 ≤ (0x20#32 - 0x18#32).toNat ∧ inDebug.psr.de = true := by
  decide

theorem witness_InterruptAcceptance :
    (let s := given breakInput start
     s.run = .running ∧ s.inputs = [breakInput] ∧ breakInput.reset = none ∧ s.ext.count = 0 ∧ s.delay = none ∧
      s.psr.me = false ∧ s.psr.de = false ∧ breakInput.debugBreak = true) ∧
    (let s := given nmiInput { start with nmiMasked := false }
     s.inputs = [nmiInput] ∧ nmiInput.debugBreak = false ∧ nmiInput.nmi = true ∧ s.nmiMasked = false ∧
      s.nmiInService = false ∧ EntryMaps { s with inputs := [] } 7 0x2FFC 0x2FF8 0x2000001C) ∧
    (let s := given request (psr 0x210 start)
     s.inputs = [request] ∧ request.debugBreak = false ∧ request.nmi = false ∧ request.request = some ⟨4, 3⟩ ∧
      s.psr.ie = true ∧ s.psr.il.toNat < (3 : BitVec 4).toNat ∧
      EntryMaps { s with inputs := [] } 20 0x2FFC 0x2FF8 0x20000050) ∧
    (let s := given request { psr 0x10 start with ext := { Ext.empty with imm := [1], count := 1 } }
     s.run = .running ∧ s.inputs = [request] ∧ ¬ s.ext.count = 0) ∧
    (let s := given request (psr 0x310 start)
     s.inputs = [request] ∧ ¬ s.psr.il.toNat < (3 : BitVec 4).toNat) :=
  ⟨⟨rfl, rfl, rfl, rfl, rfl, rfl, rfl, rfl⟩, ⟨rfl, rfl, rfl, rfl, rfl, by decide, by decide, by decide⟩,
    ⟨rfl, rfl, rfl, rfl, rfl, by decide, by decide, by decide, by decide⟩, ⟨rfl, rfl, by decide⟩, rfl, by decide⟩

theorem witness_QuietInstructionFrame :
    isQuiet (.addReg 0 1) = true ∧ isQuiet .slp = true ∧ isQuiet (.extImm 0) = true ∧
      (∃ t, exec (.addReg 0 1) start = .next t) ∧ ∃ t, exec .slp start = .next t :=
  ⟨rfl, rfl, rfl, ⟨_, rfl⟩, _, rfl⟩

end Sys2Proof.Tests
end

section
/-! Proofs about swap, mirror and saturation (49_misc.md). First the rules: where the model puts each bit of a word, and
what each saturation leaves; then the two statements. -/

namespace Sys2Proof.Machine
open Sys2Proof.Spec

/-- An instruction whose own effect changes the state to u and advances runs to u. -/
theorem runsTo_of_issue {i : Instr} {s u : State} {effect : State → Result} (hexec : exec i s = s.issue i effect)
    (heffect : effect s = .next (u.complete (s.pc + 2))) : RunsTo i s u := fun hfree => by
  rw [hexec, issue_free hfree, heffect]

/-! ## Words as four bytes (20_memory.md R80) -/

theorem getLsbD_append_byte_low {n : Nat} (a : BitVec n) (b : Byte) {j : Nat} (hj : j < 8) :
    (a ++ b).getLsbD (8 * 0 + j) = b.getLsbD j := by
  rw [Nat.mul_zero, Nat.zero_add, BitVec.getLsbD_append, if_pos hj]

theorem getLsbD_append_byte_high {n : Nat} (a : BitVec n) (b : Byte) (k j : Nat) :
    (a ++ b).getLsbD (8 * (k + 1) + j) = a.getLsbD (8 * k + j) := by
  rw [BitVec.getLsbD_append, if_neg (by omega), show 8 * (k + 1) + j - 8 = 8 * k + j by omega]

/-- Bit j of byte k of a word put together from four bytes is bit j of the k-th of them. -/
theorem getLsbD_fourBytes (b : Nat → Byte) {k j : Nat} (hk : k < 4) (hj : j < 8) :
    (b 3 ++ b 2 ++ b 1 ++ b 0 : Word).getLsbD (8 * k + j) = (b k).getLsbD j := by
  match k, hk with
  | 0, _ => rw [getLsbD_append_byte_low _ _ hj]
  | 1, _ => rw [getLsbD_append_byte_high, getLsbD_append_byte_low _ _ hj]
  | 2, _ => rw [getLsbD_append_byte_high, getLsbD_append_byte_high, getLsbD_append_byte_low _ _ hj]
  | 3, _ =>
    rw [getLsbD_append_byte_high, getLsbD_append_byte_high, getLsbD_append_byte_high, Nat.mul_zero, Nat.zero_add]

/-- Two words with the same bits in each byte are equal. -/
theorem eq_of_byte_bits {x y : Word}
    (h : ∀ k j, k < 4 → j < 8 → x.getLsbD (8 * k + j) = y.getLsbD (8 * k + j)) : x = y := by
  refine BitVec.eq_of_getLsbD_eq fun n hn => ?_
  rw [← Nat.div_add_mod n 8]
  exact h _ _ (by omega) (by omega)

/-! ## swap, swaph and mirror, bit by bit (49_misc.md R444 to R446) -/

/-- The other byte of the same halfword. -/
def otherByte (k : Nat) : Nat := if k % 2 = 0 then k + 1 else k - 1

theorem otherByte_lt {k : Nat} (hk : k < 4) : otherByte k < 4 := by
  unfold otherByte; split <;> omega

theorem otherByte_otherByte (k : Nat) : otherByte (otherByte k) = k := by
  unfold otherByte; split <;> split <;> omega

theorem getLsbD_swapBytes (x : Word) {k j : Nat} (hk : k < 4) (hj : j < 8) :
    (swapBytes x).getLsbD (8 * k + j) = x.getLsbD (8 * (3 - k) + j) := by
  have hbyte := getLsbD_fourBytes (fun k => x.extractLsb' (8 * (3 - k)) 8) hk hj
  rwa [BitVec.getLsbD_extractLsb', decide_eq_true hj, Bool.true_and] at hbyte

theorem getLsbD_swapHalves (x : Word) {k j : Nat} (hk : k < 4) (hj : j < 8) :
    (swapHalves x).getLsbD (8 * k + j) = x.getLsbD (8 * otherByte k + j) := by
  have hbyte := getLsbD_fourBytes (fun k => x.extractLsb' (8 * otherByte k) 8) hk hj
  rwa [BitVec.getLsbD_extractLsb', decide_eq_true hj, Bool.true_and] at hbyte

theorem getLsbD_mirrorBytes (x : Word) {k j : Nat} (hk : k < 4) (hj : j < 8) :
    (mirrorBytes x).getLsbD (8 * k + j) = x.getLsbD (8 * k + (7 - j)) := by
  have hbyte := getLsbD_fourBytes (fun k => (x.extractLsb' (8 * k) 8).reverse) hk hj
  rwa [BitVec.getLsbD_reverse, BitVec.getMsbD_eq_getLsbD, BitVec.getLsbD_extractLsb', decide_eq_true hj, Bool.true_and,
    decide_eq_true (show 8 - 1 - j < 8 by omega), Bool.true_and] at hbyte

theorem swapBytes_swapBytes (x : Word) : swapBytes (swapBytes x) = x :=
  eq_of_byte_bits fun k j hk hj => by
    rw [getLsbD_swapBytes _ hk hj, getLsbD_swapBytes _ (by omega) hj, show 3 - (3 - k) = k by omega]

theorem swapHalves_swapHalves (x : Word) : swapHalves (swapHalves x) = x :=
  eq_of_byte_bits fun k j hk hj => by
    rw [getLsbD_swapHalves _ hk hj, getLsbD_swapHalves _ (otherByte_lt hk) hj, otherByte_otherByte]

theorem mirrorBytes_mirrorBytes (x : Word) : mirrorBytes (mirrorBytes x) = x :=
  eq_of_byte_bits fun k j hk hj => by
    rw [getLsbD_mirrorBytes _ hk hj, getLsbD_mirrorBytes _ hk (by omega), show 7 - (7 - j) = j by omega]

theorem mirrorBytes_swapBytes (x : Word) : mirrorBytes (swapBytes x) = swapBytes (mirrorBytes x) :=
  eq_of_byte_bits fun k j hk hj => by
    rw [getLsbD_mirrorBytes _ hk hj, getLsbD_swapBytes _ hk (by omega), getLsbD_swapBytes _ hk hj,
      getLsbD_mirrorBytes _ (by omega) hj]

theorem mirrorBytes_swapHalves (x : Word) : mirrorBytes (swapHalves x) = swapHalves (mirrorBytes x) :=
  eq_of_byte_bits fun k j hk hj => by
    rw [getLsbD_mirrorBytes _ hk hj, getLsbD_swapHalves _ hk (by omega), getLsbD_swapHalves _ hk hj,
      getLsbD_mirrorBytes _ (otherByte_lt hk) hj]

/-- mirror and then swap reverses all 32 bits. -/
theorem getLsbD_swapBytes_mirrorBytes (x : Word) {k : Nat} (hk : k < 32) :
    (swapBytes (mirrorBytes x)).getLsbD k = x.getLsbD (31 - k) := by
  have hplace : k = 8 * (k / 8) + k % 8 := by omega
  rw [hplace, getLsbD_swapBytes _ (by omega) (by omega), getLsbD_mirrorBytes _ (by omega) (by omega),
    show 8 * (3 - k / 8) + (7 - k % 8) = 31 - (8 * (k / 8) + k % 8) by omega]

theorem exec_swap (rd rs : Reg) (s : State) :
    exec (.swap rd rs) s = s.issue (.swap rd rs) fun s => s.put rd (swapBytes (s.reg rs)) := rfl
theorem exec_swaph (rd rs : Reg) (s : State) :
    exec (.swaph rd rs) s = s.issue (.swaph rd rs) fun s => s.put rd (swapHalves (s.reg rs)) := rfl
theorem exec_mirror (rd rs : Reg) (s : State) :
    exec (.mirror rd rs) s = s.issue (.mirror rd rs) fun s => s.put rd (mirrorBytes (s.reg rs)) := rfl

/-- Settles O46: the model's three operations are the witnesses, each known bit by bit. -/
theorem swapAndMirror : Obligations.SwapAndMirror := fun _ rd rs =>
  ⟨Laws.RoundTrip.swap rd rs rfl, Laws.RoundTrip.swaph rd rs rfl, Laws.RoundTrip.mirror rd rs rfl,
    swapBytes, swapHalves, mirrorBytes,
    runsTo_of_issue (exec_swap ..) rfl, runsTo_of_issue (exec_swaph ..) rfl, runsTo_of_issue (exec_mirror ..) rfl,
    fun x _ _ hk hj => ⟨getLsbD_swapBytes x hk hj, getLsbD_swapHalves x hk hj, getLsbD_mirrorBytes x hk hj⟩,
    fun x => ⟨swapBytes_swapBytes x, swapHalves_swapHalves x, mirrorBytes_mirrorBytes x, mirrorBytes_swapBytes x,
      mirrorBytes_swapHalves x⟩,
    fun x _ hk => getLsbD_swapBytes_mirrorBytes x hk⟩

/-! ## Saturation (49_misc.md R447 to R453) -/

/-- The limit l in rd, and S set. -/
def State.limited (s : State) (rd : Reg) (l : Int) : State :=
  { s.setReg rd (BitVec.ofInt 32 l) with psr := { s.psr with s := true } }

theorem saturate_some (s : State) (rd : Reg) (v : Word) (l : Int) :
    s.saturate rd v (some (BitVec.ofInt 32 l)) = .next ((s.limited rd l).complete (s.pc + 2)) := rfl

theorem saturate_none (s : State) (rd : Reg) (v : Word) :
    s.saturate rd v none = .next ((s.setReg rd v).complete (s.pc + 2)) := rfl

theorem saturate_signedLimit (s : State) (rd : Reg) (v : Word) {low high : Int} (h : low ≤ high) :
    s.saturate rd v (signedLimit low high v) = .next
      ((if v.toInt < low then s.limited rd low else if high < v.toInt then s.limited rd high
        else s.setReg rd v).complete (s.pc + 2)) := by
  unfold signedLimit
  by_cases hlow : v.toInt < low
  · rw [if_neg (by omega), if_pos hlow, if_pos hlow, saturate_some]
  · rw [if_neg hlow, if_neg hlow]
    by_cases hhigh : high < v.toInt
    · rw [if_pos hhigh, if_pos hhigh, saturate_some]
    · rw [if_neg hhigh, if_neg hhigh, saturate_none]

theorem saturate_unsignedLimit (s : State) (rd : Reg) (v : Word) (high : Nat) :
    s.saturate rd v (unsignedLimit high v) = .next
      ((if high < v.toNat then s.limited rd high else s.setReg rd v).complete (s.pc + 2)) := by
  unfold unsignedLimit
  by_cases hhigh : high < v.toNat
  · rw [if_pos hhigh, if_pos hhigh, ← BitVec.ofInt_natCast, saturate_some]
  · rw [if_neg hhigh, if_neg hhigh, saturate_none]

theorem saturate_signedOverflowLimit (s : State) (rd : Reg) (v : Word) :
    s.saturate rd v s.psr.signedOverflowLimit = .next
      ((if s.psr.v then s.limited rd (if s.psr.n then 2147483647 else -2147483648)
        else s.setReg rd v).complete (s.pc + 2)) := by
  unfold Psr.signedOverflowLimit
  by_cases hv : s.psr.v
  · rw [if_pos hv, if_pos hv, ← saturate_some]
    by_cases hn : s.psr.n
    · rw [if_pos hn, if_pos hn]; rfl
    · rw [if_neg hn, if_neg hn]; rfl
  · rw [if_neg hv, if_neg hv, saturate_none]

theorem saturate_carryLimit (s : State) (rd : Reg) (v : Word) :
    s.saturate rd v s.psr.carryLimit = .next
      ((if s.psr.c then s.limited rd 4294967295 else s.setReg rd v).complete (s.pc + 2)) := by
  unfold Psr.carryLimit
  by_cases hc : s.psr.c
  · rw [if_pos hc, if_pos hc, ← saturate_some]; rfl
  · rw [if_neg hc, if_neg hc, saturate_none]

theorem exec_satB (rd rs : Reg) (s : State) : exec (.satB rd rs) s =
    s.issue (.satB rd rs) fun s => s.saturate rd (s.reg rs) (signedLimit (-128) 127 (s.reg rs)) := rfl
theorem exec_satH (rd rs : Reg) (s : State) : exec (.satH rd rs) s =
    s.issue (.satH rd rs) fun s => s.saturate rd (s.reg rs) (signedLimit (-32768) 32767 (s.reg rs)) := rfl
theorem exec_satUb (rd rs : Reg) (s : State) : exec (.satUb rd rs) s =
    s.issue (.satUb rd rs) fun s => s.saturate rd (s.reg rs) (unsignedLimit 255 (s.reg rs)) := rfl
theorem exec_satUh (rd rs : Reg) (s : State) : exec (.satUh rd rs) s =
    s.issue (.satUh rd rs) fun s => s.saturate rd (s.reg rs) (unsignedLimit 65535 (s.reg rs)) := rfl
theorem exec_satW (rd rs : Reg) (s : State) : exec (.satW rd rs) s =
    s.issue (.satW rd rs) fun s => s.saturate rd (s.reg rs) s.psr.signedOverflowLimit := rfl
theorem exec_satUw (rd rs : Reg) (s : State) : exec (.satUw rd rs) s =
    s.issue (.satUw rd rs) fun s => s.saturate rd (s.reg rs) s.psr.carryLimit := rfl
theorem exec_nop (s : State) : exec .nop s = s.issue .nop State.done := rfl

/-- Settles O47, each saturation by the rule for its limit. -/
theorem saturation : Obligations.Saturation := fun s rd rs =>
  ⟨Laws.RoundTrip.satB rd rs rfl, Laws.RoundTrip.satUb rd rs rfl, Laws.RoundTrip.satH rd rs rfl,
    Laws.RoundTrip.satUh rd rs rfl, Laws.RoundTrip.satW rd rs rfl, Laws.RoundTrip.satUw rd rs rfl,
    runsTo_of_issue (exec_satB rd rs s) (saturate_signedLimit s rd _ (low := -128) (high := 127) (by decide)),
    runsTo_of_issue (exec_satH rd rs s) (saturate_signedLimit s rd _ (low := -32768) (high := 32767) (by decide)),
    runsTo_of_issue (exec_satUb rd rs s) (saturate_unsignedLimit s rd _ 255),
    runsTo_of_issue (exec_satUh rd rs s) (saturate_unsignedLimit s rd _ 65535),
    runsTo_of_issue (exec_satW rd rs s) (saturate_signedOverflowLimit s rd _),
    runsTo_of_issue (exec_satUw rd rs s) (saturate_carryLimit s rd _),
    runsTo_of_issue (exec_nop s) (done_eq s)⟩

end Sys2Proof.Machine
end

section
/-! Proofs, the rules of the statements' own terms: each value and effect that Sys2Proof.Spec writes from the manual is the
model's operation of the same meaning. Later proofs rewrite with these and never look inside either side. -/

namespace Sys2Proof.Machine
open Sys2Proof.Spec

/-! ## Addresses -/

/-- Clearing the k low bits by a mask is dropping them and shifting back. -/
theorem and_allOnes_shiftLeft (a : Word) (k : Nat) : a &&& (BitVec.allOnes 32 <<< k) = (a >>> k) <<< k := by
  refine BitVec.eq_of_getLsbD_eq fun i hi => ?_
  simp only [BitVec.getLsbD_and, BitVec.getLsbD_shiftLeft, BitVec.getLsbD_allOnes, BitVec.getLsbD_ushiftRight, hi,
    decide_true, Bool.true_and]
  by_cases hik : i < k
  · simp [hik]
  · simp [hik, show k + (i - k) = i by omega, show i - k < 32 by omega]

theorem toNat_and_allOnes_shiftLeft (a : Word) (k : Nat) :
    (a &&& (BitVec.allOnes 32 <<< k)).toNat = a.toNat / 2 ^ k * 2 ^ k := by
  rw [and_allOnes_shiftLeft, BitVec.toNat_shiftLeft, BitVec.toNat_ushiftRight, Nat.shiftLeft_eq, Nat.shiftRight_eq_div_pow]
  exact Nat.mod_eq_of_lt (Nat.lt_of_le_of_lt (Nat.div_mul_le_self _ _) a.isLt)

theorem toNat_evenAddress (a : Word) : (evenAddress a).toNat = a.toNat / 2 * 2 := toNat_and_allOnes_shiftLeft a 1

theorem toNat_wordAddress (a : Word) : (wordAddress a).toNat = a.toNat / 4 * 4 := toNat_and_allOnes_shiftLeft a 2

theorem toNat_tableAddress (a : Word) : (tableAddress a).toNat = a.toNat / 1024 * 1024 := toNat_and_allOnes_shiftLeft a 10

theorem even_eq (a : Word) : even a = evenAddress a := by
  apply BitVec.eq_of_toNat_eq
  rw [toNat_evenAddress, even, BitVec.toNat_ofNat]
  omega

theorem even_eq_evenAddress : even = evenAddress := funext even_eq

/-- An address is even exactly when its number is. -/
theorem evenAddress_eq_self_iff (a : Word) : evenAddress a = a ↔ a.toNat % 2 = 0 := by
  rw [← BitVec.toNat_inj, toNat_evenAddress]
  omega

theorem wordAddress_eq_self_iff (a : Word) : wordAddress a = a ↔ a.toNat % 4 = 0 := by
  rw [← BitVec.toNat_inj, toNat_wordAddress]
  omega

@[simp] theorem evenAddress_evenAddress (a : Word) : evenAddress (evenAddress a) = evenAddress a := by
  rw [evenAddress_eq_self_iff, toNat_evenAddress]
  omega

@[simp] theorem wordAddress_wordAddress (a : Word) : wordAddress (wordAddress a) = wordAddress a := by
  rw [wordAddress_eq_self_iff, toNat_wordAddress]
  omega

@[simp] theorem tableAddress_tableAddress (a : Word) : tableAddress (tableAddress a) = tableAddress a := by
  rw [← BitVec.toNat_inj, toNat_tableAddress, toNat_tableAddress]
  omega

theorem evenAddress_add {a b : Word} (ha : evenAddress a = a) (hb : evenAddress b = b) : evenAddress (a + b) = a + b := by
  rw [evenAddress_eq_self_iff] at *
  rw [BitVec.toNat_add]
  omega

theorem wordAddress_add {a b : Word} (ha : wordAddress a = a) (hb : wordAddress b = b) : wordAddress (a + b) = a + b := by
  rw [wordAddress_eq_self_iff] at *
  rw [BitVec.toNat_add]
  omega

theorem wordAddress_sub {a b : Word} (ha : wordAddress a = a) (hb : wordAddress b = b) : wordAddress (a - b) = a - b := by
  rw [wordAddress_eq_self_iff] at *
  rw [BitVec.toNat_sub]
  omega

/-- The vector address as a number (60_exceptions.md R563). -/
theorem vectorAddress_eq (s : State) (n : BitVec 8) : s.vectorAddress n = vector s n.toNat := by
  apply BitVec.eq_of_toNat_eq
  have hn : n.toNat < 2 ^ 8 := n.isLt
  simp only [State.vectorAddress, vector, BitVec.toNat_append, BitVec.toNat_ofNat, BitVec.extractLsb'_toNat]
  rw [← Nat.shiftLeft_add_eq_or_of_lt hn, ← Nat.shiftLeft_add_eq_or_of_lt (by decide)]
  simp only [Nat.shiftLeft_eq, Nat.shiftRight_eq_div_pow]
  omega

/-! ## Accesses (20_memory.md R81, R82, R84) -/

theorem unaligned_iff (z : Size) (a : Word) : unaligned z a ↔ z.misaligned a = true := (misaligned_iff z a).symm

theorem misaligned_of_not_unaligned {z : Size} {a : Word} (h : ¬ unaligned z a) : z.misaligned a = false := by
  rwa [unaligned_iff, Bool.not_eq_true] at h

theorem storedByte_eq (big : Bool) (z : Size) (v : Word) (k : Nat) : storedByte big z v k = byteOf v (z.index big k) := by
  apply BitVec.eq_of_toNat_eq
  simp only [storedByte, byteOf, Size.index, BitVec.toNat_ofNat, BitVec.extractLsb'_toNat, Nat.shiftRight_eq_div_pow,
    Nat.pow_mul]

theorem bmod_toNat_eq (v : Word) (w : Nat) : Int.bmod v.toNat (2 ^ w) = (v.setWidth w).toInt := by
  rw [BitVec.toInt_setWidth]

theorem ofNat_mod_eq (v : Word) (w : Nat) : BitVec.ofNat 32 (v.toNat % 2 ^ w) = (v.setWidth w).setWidth 32 := by
  apply BitVec.eq_of_toNat_eq
  rw [BitVec.toNat_ofNat, BitVec.toNat_setWidth, BitVec.toNat_setWidth]

theorem widened_eq (z : Size) (signed : Bool) (v : Word) : widened z signed v = extendTo z signed v := by
  cases z with
  | word => cases signed <;> rfl
  | byte =>
    cases signed
    · exact ofNat_mod_eq v 8
    · exact congrArg (BitVec.ofInt 32) (bmod_toNat_eq v 8)
  | half =>
    cases signed
    · exact ofNat_mod_eq v 16
    · exact congrArg (BitVec.ofInt 32) (bmod_toNat_eq v 16)

theorem noted_eq (s : State) (z : Size) (p : Word) : noted s z p = s.noteStore z p := by
  cases z <;> simp [noted, State.noteStore, Size.span, Size.bytes, List.range_succ]

theorem flagged_eq (s : State) (p : Word) : flagged s p = s.noteFetch p := by
  simp [flagged, State.noteFetch, Bool.or_assoc, ← Bool.decide_or]

/-! ## The stack pointer and the accumulator (10_state.md R21, R37, R38) -/

theorem withSp_eq (s : State) (v : Word) : withSp s v = s.setSp v := rfl

theorem withAlr_eq (s : State) (v : Word) : withAlr s v = s.writeAlr v := rfl

theorem withAhr_eq (s : State) (v : Word) : withAhr s v = s.writeAhr v := rfl

/-- The two words of a 64-bit value given as an integer. -/
theorem extractLsb'_ofInt_low (x : Int) : (BitVec.ofInt 64 x).extractLsb' 0 32 = BitVec.ofInt 32 x := by
  apply BitVec.eq_of_toNat_eq
  simp only [BitVec.extractLsb'_toNat, BitVec.toNat_ofInt, Nat.shiftRight_zero]
  omega

theorem extractLsb'_ofInt_high (x : Int) :
    (BitVec.ofInt 64 x).extractLsb' 32 32 = BitVec.ofInt 32 (x / 4294967296) := by
  apply BitVec.eq_of_toNat_eq
  simp only [BitVec.extractLsb'_toNat, BitVec.toNat_ofInt, Nat.shiftRight_eq_div_pow]
  omega

theorem withAcc_eq (s : State) (x : Int) : withAcc s x = s.writeAcc (BitVec.ofInt 64 x) := by
  rw [State.writeAcc, extractLsb'_ofInt_low, extractLsb'_ofInt_high]
  rfl

theorem lowHalf_eq (v : Word) : lowHalf v = (v.setWidth 16).toInt := bmod_toNat_eq v 16

/-! ## Conditions -/

theorem conditionTrue_eq (c : Cond) (p : Psr) : conditionTrue c p = holds c p := by
  cases hn : p.n <;> cases hv : p.v <;> cases hz : p.z <;> cases hc : p.c <;> cases c <;>
    simp [conditionTrue, holds, hn, hv, hz, hc]

/-! ## Exceptions (60_exceptions.md R570, R590, R595) -/

theorem debugBase_eq (s : State) : debugBase s = s.debugBase := rfl

theorem debugEntered_eq (s : State) (ret : Word) : debugEntered s ret = s.debugException ret := by
  unfold debugEntered
  rw [even_eq_evenAddress]
  rfl

theorem mmuException_eq {s : State} (h : s.psr.de = false) (ret : Word) : s.mmuException ret = .next (mmuEntered s ret) := by
  unfold State.mmuException mmuEntered
  rw [if_neg (Bool.eq_false_iff.mp h), even_eq_evenAddress]
  rfl

theorem mmuException_fault {s : State} (h : s.psr.de = true) (ret : Word) :
    s.mmuException ret = .fault (.exceptionInHandler .mmu) := by
  unfold State.mmuException
  rw [if_pos h]

theorem trap_eq_entered {s : State} {n : BitVec 8} {p1 p2 p3 : Word} (h : EntryMaps s n.toNat p1 p2 p3)
    (level : Option (BitVec 4)) (nmi : Bool) (ret restart : Word) :
    s.trap n level nmi ret restart = .next (entered s level nmi ret p1 p2 p3) := by
  obtain ⟨h1, h2, h3⟩ := h
  rw [← vectorAddress_eq] at h3
  rw [trap_mapped h1 h2 h3]
  unfold entered
  rw [even_eq_evenAddress]
  rfl

theorem retired_eq (s : State) : retired s = { s.retire with delay := none } := rfl

end Sys2Proof.Machine
end

section
/-! Proofs about the decoder and the encoder (30_encoding.md): the round trips in both directions, and the codes the family
files print. -/

namespace Sys2Proof.Laws

/-! ## Encoding, then decoding -/

theorem codeOfBytes_high_low (w : Half) : w.extractLsb' 8 8 ++ w.extractLsb' 0 8 = w := by
  rw [BitVec.extractLsb'_append_extractLsb'_eq_extractLsb' (by decide)]
  exact BitVec.extractLsb'_eq_self

theorem decode_bytesOfCode (bigEndian : Bool) (w : Half) (rest : List Byte) :
    decode bigEndian (bytesOfCode bigEndian w ++ rest) =
      match decodeHalf w with
      | some i => .ok (i, rest)
      | none => .error (.unassigned w) := by
  cases bigEndian <;> simp only [bytesOfCode, decode, codeOfBytes, Bool.false_eq_true, if_true, if_false,
    List.cons_append, List.nil_append, codeOfBytes_high_low] <;> rfl

/-- Every encoded well-formed instruction decodes to itself: one lemma for each instruction, put together. -/
theorem decodeHalf_encodeHalf : ∀ i : Instr, RoundTrip.Statement i
  | .nop => RoundTrip.nop
  | .slp => RoundTrip.slp
  | .halt => RoundTrip.halt
  | .pushn rs => RoundTrip.pushn rs
  | .popn rd => RoundTrip.popn rd
  | .jpr d rb => RoundTrip.jpr d rb
  | .brk => RoundTrip.brk
  | .retd => RoundTrip.retd
  | .int imm2 => RoundTrip.int imm2
  | .reti => RoundTrip.reti
  | .callReg d rb => RoundTrip.callReg d rb
  | .ret d => RoundTrip.ret d
  | .jpReg d rb => RoundTrip.jpReg d rb
  | .retm => RoundTrip.retm
  | .push rs => RoundTrip.push rs
  | .pop rd => RoundTrip.pop rd
  | .pushs ss => RoundTrip.pushs ss
  | .pops sd => RoundTrip.pops sd
  | .macW rs => RoundTrip.macW rs
  | .macHw rs => RoundTrip.macHw rs
  | .macclr => RoundTrip.macclr
  | .ldCf => RoundTrip.ldCf
  | .divuW rs => RoundTrip.divuW rs
  | .divW rs => RoundTrip.divW rs
  | .repeatReg rc => RoundTrip.repeatReg rc
  | .repeatImm imm4 => RoundTrip.repeatImm imm4
  | .addDp rd => RoundTrip.addDp rd
  | .jrgt d sign8 => RoundTrip.jrgt d sign8
  | .jrge d sign8 => RoundTrip.jrge d sign8
  | .jrlt d sign8 => RoundTrip.jrlt d sign8
  | .jrle d sign8 => RoundTrip.jrle d sign8
  | .jrugt d sign8 => RoundTrip.jrugt d sign8
  | .jruge d sign8 => RoundTrip.jruge d sign8
  | .jrult d sign8 => RoundTrip.jrult d sign8
  | .jrule d sign8 => RoundTrip.jrule d sign8
  | .jreq d sign8 => RoundTrip.jreq d sign8
  | .jrne d sign8 => RoundTrip.jrne d sign8
  | .callRel d sign8 => RoundTrip.callRel d sign8
  | .jpRel d sign8 => RoundTrip.jpRel d sign8
  | .ldbInd rd rb => RoundTrip.ldbInd rd rb
  | .ldbInc rd rb => RoundTrip.ldbInc rd rb
  | .ldubInd rd rb => RoundTrip.ldubInd rd rb
  | .ldubInc rd rb => RoundTrip.ldubInc rd rb
  | .ldhInd rd rb => RoundTrip.ldhInd rd rb
  | .ldhInc rd rb => RoundTrip.ldhInc rd rb
  | .lduhInd rd rb => RoundTrip.lduhInd rd rb
  | .lduhInc rd rb => RoundTrip.lduhInc rd rb
  | .ldwInd rd rb => RoundTrip.ldwInd rd rb
  | .ldwInc rd rb => RoundTrip.ldwInc rd rb
  | .stbInd rb rs => RoundTrip.stbInd rb rs
  | .stbInc rb rs => RoundTrip.stbInc rb rs
  | .sthInd rb rs => RoundTrip.sthInd rb rs
  | .sthInc rb rs => RoundTrip.sthInc rb rs
  | .stwInd rb rs => RoundTrip.stwInd rb rs
  | .stwInc rb rs => RoundTrip.stwInc rb rs
  | .addReg rd rs => RoundTrip.addReg rd rs
  | .subReg rd rs => RoundTrip.subReg rd rs
  | .cmpReg rd rs => RoundTrip.cmpReg rd rs
  | .ldwReg rd rs => RoundTrip.ldwReg rd rs
  | .andReg rd rs => RoundTrip.andReg rd rs
  | .orReg rd rs => RoundTrip.orReg rd rs
  | .xorReg rd rs => RoundTrip.xorReg rd rs
  | .notReg rd rs => RoundTrip.notReg rd rs
  | .srlHigh rd imm5 => RoundTrip.srlHigh rd imm5
  | .sllHigh rd imm5 => RoundTrip.sllHigh rd imm5
  | .sraHigh rd imm5 => RoundTrip.sraHigh rd imm5
  | .slaHigh rd imm5 => RoundTrip.slaHigh rd imm5
  | .rrHigh rd imm5 => RoundTrip.rrHigh rd imm5
  | .rlHigh rd imm5 => RoundTrip.rlHigh rd imm5
  | .extSra imm2 => RoundTrip.extSra imm2
  | .extSrl imm2 => RoundTrip.extSrl imm2
  | .extSll imm2 => RoundTrip.extSll imm2
  | .extGt => RoundTrip.extGt
  | .extGe => RoundTrip.extGe
  | .extLt => RoundTrip.extLt
  | .extLe => RoundTrip.extLe
  | .extUgt => RoundTrip.extUgt
  | .extUge => RoundTrip.extUge
  | .extUlt => RoundTrip.extUlt
  | .extUle => RoundTrip.extUle
  | .extEq => RoundTrip.extEq
  | .extNe => RoundTrip.extNe
  | .extReg rs => RoundTrip.extReg rs
  | .extRegSra rs imm2 => RoundTrip.extRegSra rs imm2
  | .extRegSrl rs imm2 => RoundTrip.extRegSrl rs imm2
  | .extRegSll rs imm2 => RoundTrip.extRegSll rs imm2
  | .ldbSp rd imm6 => RoundTrip.ldbSp rd imm6
  | .ldubSp rd imm6 => RoundTrip.ldubSp rd imm6
  | .ldhSp rd imm6 => RoundTrip.ldhSp rd imm6
  | .lduhSp rd imm6 => RoundTrip.lduhSp rd imm6
  | .ldwSp rd imm6 => RoundTrip.ldwSp rd imm6
  | .stbSp imm6 rs => RoundTrip.stbSp imm6 rs
  | .sthSp imm6 rs => RoundTrip.sthSp imm6 rs
  | .stwSp imm6 rs => RoundTrip.stwSp imm6 rs
  | .ldbDp rd imm6 => RoundTrip.ldbDp rd imm6
  | .ldubDp rd imm6 => RoundTrip.ldubDp rd imm6
  | .ldhDp rd imm6 => RoundTrip.ldhDp rd imm6
  | .lduhDp rd imm6 => RoundTrip.lduhDp rd imm6
  | .ldwDp rd imm6 => RoundTrip.ldwDp rd imm6
  | .stbDp imm6 rs => RoundTrip.stbDp imm6 rs
  | .sthDp imm6 rs => RoundTrip.sthDp imm6 rs
  | .stwDp imm6 rs => RoundTrip.stwDp imm6 rs
  | .addImm rd imm6 => RoundTrip.addImm rd imm6
  | .subImm rd imm6 => RoundTrip.subImm rd imm6
  | .cmpImm rd sign6 => RoundTrip.cmpImm rd sign6
  | .ldwImm rd sign6 => RoundTrip.ldwImm rd sign6
  | .andImm rd sign6 => RoundTrip.andImm rd sign6
  | .orImm rd sign6 => RoundTrip.orImm rd sign6
  | .xorImm rd sign6 => RoundTrip.xorImm rd sign6
  | .notImm rd sign6 => RoundTrip.notImm rd sign6
  | .addSp imm10 => RoundTrip.addSp imm10
  | .subSp imm10 => RoundTrip.subSp imm10
  | .srlLow rd imm5 => RoundTrip.srlLow rd imm5
  | .srlReg rd rs => RoundTrip.srlReg rd rs
  | .sllLow rd imm5 => RoundTrip.sllLow rd imm5
  | .sllReg rd rs => RoundTrip.sllReg rd rs
  | .sraLow rd imm5 => RoundTrip.sraLow rd imm5
  | .sraReg rd rs => RoundTrip.sraReg rd rs
  | .slaLow rd imm5 => RoundTrip.slaLow rd imm5
  | .slaReg rd rs => RoundTrip.slaReg rd rs
  | .rrLow rd imm5 => RoundTrip.rrLow rd imm5
  | .rrReg rd rs => RoundTrip.rrReg rd rs
  | .rlLow rd imm5 => RoundTrip.rlLow rd imm5
  | .rlReg rd rs => RoundTrip.rlReg rd rs
  | .scan0 rd rs => RoundTrip.scan0 rd rs
  | .scan1 rd rs => RoundTrip.scan1 rd rs
  | .swap rd rs => RoundTrip.swap rd rs
  | .mirror rd rs => RoundTrip.mirror rd rs
  | .swaph rd rs => RoundTrip.swaph rd rs
  | .satB rd rs => RoundTrip.satB rd rs
  | .div0s rs => RoundTrip.div0s rs
  | .div0u rs => RoundTrip.div0u rs
  | .div1 rs => RoundTrip.div1 rs
  | .div2s rs => RoundTrip.div2s rs
  | .div3s => RoundTrip.div3s
  | .satUb rd rs => RoundTrip.satUb rd rs
  | .ldwSd sd rs => RoundTrip.ldwSd sd rs
  | .ldbReg rd rs => RoundTrip.ldbReg rd rs
  | .mltH rd rs => RoundTrip.mltH rd rs
  | .mltHw rd rs => RoundTrip.mltHw rd rs
  | .ldwSs rd ss => RoundTrip.ldwSs rd ss
  | .ldubReg rd rs => RoundTrip.ldubReg rd rs
  | .mltuH rd rs => RoundTrip.mltuH rd rs
  | .mac1H rd rs => RoundTrip.mac1H rd rs
  | .btst rb imm3 => RoundTrip.btst rb imm3
  | .ldhReg rd rs => RoundTrip.ldhReg rd rs
  | .mltW rd rs => RoundTrip.mltW rd rs
  | .mac1Hw rd rs => RoundTrip.mac1Hw rd rs
  | .bclr rb imm3 => RoundTrip.bclr rb imm3
  | .lduhReg rd rs => RoundTrip.lduhReg rd rs
  | .mltuW rd rs => RoundTrip.mltuW rd rs
  | .bset rb imm3 => RoundTrip.bset rb imm3
  | .ldcRead rd imm4 => RoundTrip.ldcRead rd imm4
  | .mac rs => RoundTrip.mac rs
  | .mac1W rd rs => RoundTrip.mac1W rd rs
  | .bnot rb imm3 => RoundTrip.bnot rb imm3
  | .ldcWrite imm4 rs => RoundTrip.ldcWrite imm4 rs
  | .satH rd rs => RoundTrip.satH rd rs
  | .satUh rd rs => RoundTrip.satUh rd rs
  | .adc rd rs => RoundTrip.adc rd rs
  | .loopReg rc ra => RoundTrip.loopReg rc ra
  | .loopRegImm rc imm4 => RoundTrip.loopRegImm rc imm4
  | .loopImm count addr => RoundTrip.loopImm count addr
  | .sbc rd rs => RoundTrip.sbc rd rs
  | .satW rd rs => RoundTrip.satW rd rs
  | .satUw rd rs => RoundTrip.satUw rd rs
  | .doC imm6 => RoundTrip.doC imm6
  | .psrset imm5 => RoundTrip.psrset imm5
  | .psrclr imm5 => RoundTrip.psrclr imm5
  | .extImm imm13 => RoundTrip.extImm imm13

/-- Settles O2, from the halfword round trip of each instruction. -/
theorem decodeOfEncode : Obligations.DecodeOfEncode := fun i bigEndian rest hwf => by
  rw [encode, decode_bytesOfCode, decodeHalf_encodeHalf i hwf]

/-! ## Decoding, then encoding -/

/-- A decoder's answer on a code: nothing, or a well-formed instruction whose encoding is the code. -/
def Reads (w : Half) (answer : Option Instr) : Prop :=
  (answer.all fun i => decide (i.WellFormed ∧ encodeHalf i = w)) = true

theorem reads_none {w : Half} : Reads w none := rfl

theorem reads_some {w : Half} {i : Instr} (h : i.WellFormed ∧ encodeHalf i = w) : Reads w (some i) := decide_eq_true h

theorem reads_whenZero {w : Half} {y : BitVec 4} {i : Instr} (h : y = 0#4 → i.WellFormed ∧ encodeHalf i = w) :
    Reads w (whenZero y i) := by
  unfold whenZero
  split
  · exact reads_some (h ‹_›)
  · exact reads_none

/-! Each layout of 30_encoding.md R122 to R125 puts a code together from its fields. -/

theorem code12_join {w : Half} {h : BitVec 12} (hh : w.extractLsb' 4 12 = h) : h ++ fieldY w = w := by
  rw [← hh, fieldY, BitVec.extractLsb'_append_extractLsb'_eq_extractLsb' (by decide)]
  exact BitVec.extractLsb'_eq_self

theorem code12_join_zero {w : Half} {h : BitVec 12} (hh : w.extractLsb' 4 12 = h) (hy : fieldY w = 0#4) : h ++ 0#4 = w := by
  rw [← hy, code12_join hh]

theorem code844_join {w : Half} {h : BitVec 8} (hh : fieldHigh w = h) : h ++ fieldX w ++ fieldY w = w := by
  rw [← hh, fieldHigh, fieldX, fieldY, BitVec.extractLsb'_append_extractLsb'_eq_extractLsb' (by decide),
    BitVec.extractLsb'_append_extractLsb'_eq_extractLsb' (by decide)]
  exact BitVec.extractLsb'_eq_self

theorem code844_join_zero {w : Half} {h : BitVec 8} (hh : fieldHigh w = h) (hy : fieldY w = 0#4) :
    h ++ fieldX w ++ 0#4 = w := by
  rw [← hy, code844_join hh]

theorem class_join (w : Half) : w.extractLsb' 13 3 ++ w.extractLsb' 0 13 = w := by
  rw [BitVec.extractLsb'_append_extractLsb'_eq_extractLsb' (by decide)]
  exact BitVec.extractLsb'_eq_self

theorem code664_join {w : Half} {c o : BitVec 3} {h : BitVec 6} (hc : w.extractLsb' 13 3 = c) (ho : fieldOp1 w = o)
    (hh : c ++ o = h) : h ++ fieldImm6 w ++ fieldY w = w := by
  rw [← hh, ← hc, ← ho, fieldOp1, fieldImm6, fieldY, BitVec.extractLsb'_append_extractLsb'_eq_extractLsb' (by decide),
    BitVec.extractLsb'_append_extractLsb'_eq_extractLsb' (by decide),
    BitVec.extractLsb'_append_extractLsb'_eq_extractLsb' (by decide)]
  exact BitVec.extractLsb'_eq_self

theorem code610_join {w : Half} {c o : BitVec 3} {h : BitVec 6} (hc : w.extractLsb' 13 3 = c) (ho : fieldOp1 w = o)
    (hh : c ++ o = h) : h ++ w.extractLsb' 0 10 = w := by
  rw [← hh, ← hc, ← ho, fieldOp1, BitVec.extractLsb'_append_extractLsb'_eq_extractLsb' (by decide),
    BitVec.extractLsb'_append_extractLsb'_eq_extractLsb' (by decide)]
  exact BitVec.extractLsb'_eq_self

theorem bit_fieldD (w : Half) : bit (fieldD w) = w.extractLsb' 8 1 := by
  refine BitVec.eq_of_getLsbD_eq fun i hi => ?_
  obtain rfl : i = 0 := by omega
  simp [bit, fieldD]

theorem branch_join {w : Half} {c : BitVec 3} {o : BitVec 4} {h : BitVec 7} (hc : w.extractLsb' 13 3 = c)
    (ho : w.extractLsb' 9 4 = o) (hh : c ++ o = h) : h ++ bit (fieldD w) ++ w.extractLsb' 0 8 = w := by
  rw [← hh, ← hc, ← ho, bit_fieldD, BitVec.extractLsb'_append_extractLsb'_eq_extractLsb' (by decide),
    BitVec.extractLsb'_append_extractLsb'_eq_extractLsb' (by decide),
    BitVec.extractLsb'_append_extractLsb'_eq_extractLsb' (by decide)]
  exact BitVec.extractLsb'_eq_self

/-! The decoders, one by one. -/

theorem reads_int : ∀ r : BitVec 4,
    Reads (0x048#12 ++ r) (if r.extractLsb' 2 2 = 0#2 then some (.int (r.extractLsb' 0 2)) else none) := by
  unfold Reads; decide

theorem reads_class0Low (w : Half) : Reads w (decodeClass0Low w) := by
  unfold decodeClass0Low
  dsimp only
  split <;> rename_i h
  all_goals first
    | (with_reducible apply reads_none)
    | (with_reducible apply reads_some); exact ⟨rfl, code12_join (h.trans (by decide))⟩
    | (with_reducible apply reads_whenZero); exact fun hy => ⟨rfl, Eq.trans (by decide) (code12_join_zero h hy)⟩
    | have hint := reads_int (fieldY w); rwa [code12_join h] at hint

theorem reads_class0 (w : Half) (hc : w.extractLsb' 13 3 = 0b000#3) : Reads w (decodeClass0 w) := by
  unfold decodeClass0
  dsimp only
  split <;> rename_i h
  all_goals first
    | (with_reducible apply reads_some); exact ⟨rfl, branch_join hc h (by decide)⟩
    | exact reads_class0Low w

theorem reads_extOp : ∀ x y : BitVec 4, Reads (0x3B#8 ++ x ++ y) (decodeExtOp x y) := by
  unfold Reads; decide

theorem reads_extReg : ∀ x y : BitVec 4, Reads (0x3F#8 ++ x ++ y) (decodeExtReg x y) := by
  unfold Reads; decide

theorem reads_system : ∀ x y : BitVec 4, Reads (0xBF#8 ++ x ++ y) (decodeSystem (0xBF#8 ++ x ++ y)) := by
  unfold Reads; decide

theorem highCount_wf (x : BitVec 4) : decide (16 ≤ (1#1 ++ x).toNat) = true := by revert x; decide

theorem lowCount_wf (x : BitVec 4) : decide ((0#1 ++ x).toNat < 16) = true := by revert x; decide

theorem count_low_bits (b : BitVec 1) (x : BitVec 4) : (b ++ x).extractLsb' 0 4 = x := by
  rw [BitVec.extractLsb'_append_eq_of_add_le (by decide), BitVec.extractLsb'_eq_self]

theorem bitNumber_join : ∀ y : BitVec 4, y.getLsbD 3 = false → 0b0#1 ++ y.extractLsb' 0 3 = y := by decide

/-- The code of a bit operation: a high byte, rb, a 0 and the bit number. -/
theorem bitOp_join {w : Half} {h : BitVec 8} (hh : fieldHigh w = h) (hy : (fieldY w).getLsbD 3 = false) :
    h ++ fieldX w ++ 0b0#1 ++ (fieldY w).extractLsb' 0 3 = w := by
  rw [BitVec.append_assoc (x₂ := 0b0#1), bitNumber_join _ hy]
  exact code844_join hh

theorem reads_unless {w : Half} {b : Bool} {i : Instr} (h : b = false → i.WellFormed ∧ encodeHalf i = w) :
    Reads w (if b then none else some i) := by
  cases b
  · exact reads_some (h rfl)
  · exact reads_none

theorem reads_div3s {w : Half} (hh : fieldHigh w = 0x9B#8) :
    Reads w (if fieldX w = 0#4 then whenZero (fieldY w) .div3s else none) := by
  split
  · next hx => exact reads_whenZero fun hy => ⟨rfl, by rw [← code844_join_zero hh hy, hx]; rfl⟩
  · exact reads_none

theorem reads_class1 (w : Half) : Reads w (decodeClass1 w) := by
  unfold decodeClass1
  dsimp only
  split <;> rename_i h
  all_goals first
    | (with_reducible apply reads_none)
    | (with_reducible apply reads_some)
      constructor
      · simp only [Instr.WellFormed, Instr.wellFormed, highCount_wf]
      · simp only [encodeHalf, count_low_bits]; exact code844_join h
    | have hextOp := reads_extOp (fieldX w) (fieldY w); rwa [code844_join h] at hextOp
    | have hextReg := reads_extReg (fieldX w) (fieldY w); rwa [code844_join h] at hextReg

theorem reads_class2 (w : Half) (hc : w.extractLsb' 13 3 = 0b010#3) : Reads w (decodeClass2 w) := by
  unfold decodeClass2
  dsimp only
  split <;> exact reads_some ⟨rfl, code664_join hc ‹_› (by decide)⟩

theorem reads_class3 (w : Half) (hc : w.extractLsb' 13 3 = 0b011#3) : Reads w (decodeClass3 w) := by
  unfold decodeClass3
  dsimp only
  split <;> exact reads_some ⟨rfl, code664_join hc ‹_› (by decide)⟩

theorem reads_class7 (w : Half) (hc : w.extractLsb' 13 3 = 0b111#3) : Reads w (decodeClass7 w) := by
  unfold decodeClass7
  dsimp only
  split <;> exact reads_some ⟨rfl, code664_join hc ‹_› (by decide)⟩

theorem reads_class4 (w : Half) (hc : w.extractLsb' 13 3 = 0b100#3) : Reads w (decodeClass4 w) := by
  unfold decodeClass4
  split
  · exact reads_some ⟨rfl, code610_join hc ‹_› (by decide)⟩
  · exact reads_some ⟨rfl, code610_join hc ‹_› (by decide)⟩
  · dsimp only
    split <;> rename_i h
    all_goals first
      | (with_reducible apply reads_none)
      | (with_reducible apply reads_some)
        constructor
        · simp only [Instr.WellFormed, Instr.wellFormed, lowCount_wf]
        · simp only [encodeHalf, count_low_bits]; exact code844_join h
      | (with_reducible apply reads_whenZero); exact fun hy => ⟨rfl, code844_join_zero h hy⟩
      | exact reads_div3s h

theorem reads_class5 (w : Half) : Reads w (decodeClass5 w) := by
  unfold decodeClass5
  dsimp only
  split <;> rename_i h
  all_goals first
    | (with_reducible apply reads_none)
    | (with_reducible apply reads_some); exact ⟨rfl, code844_join h⟩
    | (with_reducible apply reads_whenZero); exact fun hy => ⟨rfl, code844_join_zero h hy⟩
    | (with_reducible apply reads_unless); exact fun hy => ⟨rfl, bitOp_join h hy⟩
    | have hsystem := reads_system (fieldX w) (fieldY w); rwa [code844_join h] at hsystem

theorem reads_half (w : Half) : Reads w (decodeHalf w) := by
  unfold decodeHalf
  split <;> rename_i hc
  · exact reads_class0 w hc
  · exact reads_class1 w
  · exact reads_class2 w hc
  · exact reads_class3 w hc
  · exact reads_class4 w hc
  · exact reads_class5 w
  · exact reads_some ⟨rfl, by rw [encodeHalf, ← hc, class_join]⟩
  · exact reads_class7 w hc

/-- Settles O3: each decoder reads back what the encoder writes. -/
theorem encodeOfDecode : Obligations.EncodeOfDecode := fun w i hdecode => by
  have hreads := reads_half w
  rw [hdecode] at hreads
  exact of_decide_eq_true hreads

/-- Settles O1, each code by evaluating the decoder. -/
theorem decodeSampleWords : Obligations.DecodeSampleWords := by
  refine ⟨?_, ?_, ?_, ?_, ?_, ?_, ?_, ?_, ?_, ?_, ?_, ?_, ?_, ?_, ?_, ?_, ?_, ?_, ?_⟩ <;> rfl

end Sys2Proof.Laws
end

section
/-! Proofs about where an instruction may stand, `ext cond`, and completion (48_branch.md R396, 50_loop_repeat.md R465 to R481,
52_ext.md R531). -/

namespace Sys2Proof.Machine
open Sys2Proof.Spec

/-! ## Every instruction is issued -/

/-- Whatever the instruction, it first meets the tests of its place and of `ext cond`. -/
theorem exec_eq_issue (i : Instr) : ∃ effect, ∀ s, exec i s = s.issue i effect := by
  cases i <;> exact ⟨_, fun _ => rfl⟩

theorem exec_misplaced {i : Instr} {s : State} {e : Fault} (h : s.misplaced i = some e) : exec i s = .fault e := by
  obtain ⟨effect, hexec⟩ := exec_eq_issue i
  rw [hexec, issue_fault h]

theorem exec_skipped {i : Instr} {s : State} (hm : s.misplaced i = none) (hs : s.skips i = true) :
    exec i s = .next (s.complete (s.pc + 2)) := by
  obtain ⟨effect, hexec⟩ := exec_eq_issue i
  rw [hexec, issue_skip hm hs]

/-- A free instruction does what its own effect does. -/
theorem exec_of_issue {i : Instr} {s : State} {r : Result} {effect : State → Result} (hexec : exec i s = s.issue i effect)
    (heffect : effect s = r) (hfree : s.Free i) : exec i s = r := by
  rw [hexec, issue_free hfree, heffect]

/-! ## The placement table against the manual's lists -/

theorem placement_slot (i : Instr) : (placement i).slot = mayFillSlot i := by
  cases i <;> rfl

theorem placement_repeatable (i : Instr) : (placement i).repeatable = !unrepeatable i := by
  cases i <;> rfl

theorem placement_conditional (i : Instr) :
    (placement i).conditional = !(isControl i || (branchForm i).isSome || isPrefix i) := by
  cases i <;> rfl

/-- The branches depend on their d bit, the others do not. -/
theorem placement_loopEnd (i : Instr) :
    (placement i).loopEnd = if notNearLoopEnd i then .notLastTwo else if notAtLoopEnd i then .notLast else .anywhere := by
  cases i <;> try rfl
  all_goals
    rename_i d _
    cases d <;> rfl

theorem not_anywhere_iff (i : Instr) :
    ((placement i).loopEnd != .anywhere) = true ↔ notAtLoopEnd i = true ∨ notNearLoopEnd i = true := by
  rw [placement_loopEnd]
  cases notNearLoopEnd i <;> cases notAtLoopEnd i <;> simp

theorem notLastTwo_iff (i : Instr) : (placement i).loopEnd = .notLastTwo ↔ notNearLoopEnd i = true := by
  rw [placement_loopEnd]
  cases notNearLoopEnd i <;> cases notAtLoopEnd i <;> simp

/-- What stops an instruction where it stands, in the words of the manual's lists. -/
theorem misplaced_eq (s : State) (i : Instr) :
    s.misplaced i =
      if s.delay ≠ none ∧ mayFillSlot i = false then some .prohibitedDelaySlot
      else if s.psr.rm = true ∧ s.pc = even s.lsa ∧ unrepeatable i = true then some .unrepeatableAtLsa
      else if s.psr.lm = true ∧ ((s.pc = even s.lea ∧ (notAtLoopEnd i = true ∨ notNearLoopEnd i = true)) ∨
        (s.pc = even s.lea - 2 ∧ notNearLoopEnd i = true)) then some .forbiddenAtLoopEnd
      else none := by
  simp only [State.misplaced, placement_slot, placement_repeatable, Bool.and_eq_true, Bool.or_eq_true, not_anywhere_iff,
    notLastTwo_iff, beq_iff_eq, Bool.not_eq_true', Bool.not_not, Option.isSome_iff_ne_none, even_eq, and_assoc]

/-- Settles O15, from the placement test in the words of the lists. -/
theorem placementStops : Obligations.PlacementStops := fun i s => by
  refine ⟨fun h => exec_misplaced ?_, fun h1 h2 => exec_misplaced ?_, fun h1 h2 h3 => exec_misplaced ?_, fun h1 h2 h3 => ?_⟩
  · rw [misplaced_eq, if_pos h]
  · rw [misplaced_eq, if_neg h1, if_pos h2]
  · rw [misplaced_eq, if_neg h1, if_neg h2, if_pos h3]
  · rw [misplaced_eq, if_neg h1, if_neg h2, if_neg h3]

theorem skips_eq {s : State} {c : Cond} (hcond : s.ext.cond = some c) (i : Instr) :
    s.skips i = (!(isControl i || (branchForm i).isSome || isPrefix i) && conditionTrue c s.psr) := by
  rw [State.skips, placement_conditional, hcond, conditionTrue_eq]

/-- Settles O16: an instruction is skipped exactly when the condition is valid on it and true. -/
theorem conditionalExecution : Obligations.ConditionalExecution := fun i s c hplace hcond => by
  refine ⟨fun hvalid htrue => exec_skipped hplace ?_, fun _ hfalse => ⟨hplace, ?_⟩, fun hinvalid => ⟨hplace, ?_⟩⟩
  · rw [skips_eq hcond, hvalid, htrue]; rfl
  · rw [skips_eq hcond, hfalse, Bool.and_false]
  · rw [skips_eq hcond, hinvalid]; rfl

/-! ## Completion (50_loop_repeat.md R465, R475, R480) -/

theorem complete_plain {s : State} (hrepeat : ¬ (s.psr.rm = true ∧ s.pc = even s.lsa))
    (hloop : ¬ (s.psr.lm = true ∧ s.pc = even s.lea)) (npc : Word) :
    s.complete npc = { retired s with pc := s.delay.getD npc } := by
  rw [even_eq] at hrepeat hloop
  rcases redirect_cases { s.retire with delay := none } s.pc (s.delay.getD npc) with
    ⟨hr, ha, _⟩ | ⟨_, hl, ha, _⟩ | ⟨_, _, h⟩
  · exact absurd ⟨hr, ha⟩ hrepeat
  · exact absurd ⟨hl, ha⟩ hloop
  · exact h

theorem complete_repeat {s : State} (hrm : s.psr.rm = true) (hpc : s.pc = even s.lsa) (npc : Word) :
    s.complete npc = if s.lco = 0 then { retired s with psr := { s.psr with rm := false }, pc := s.pc + 2 }
      else { retired s with lco := s.lco - 1 } := by
  rw [even_eq] at hpc
  rcases redirect_cases { s.retire with delay := none } s.pc (s.delay.getD npc) with ⟨_, _, h⟩ | ⟨hn, _⟩ | ⟨hn, _⟩
  · exact h
  · exact absurd ⟨hrm, hpc⟩ hn
  · exact absurd ⟨hrm, hpc⟩ hn

theorem complete_loop {s : State} (hlm : s.psr.lm = true) (hpc : s.pc = even s.lea)
    (hrepeat : ¬ (s.psr.rm = true ∧ s.pc = even s.lsa)) (npc : Word) :
    s.complete npc = if s.lco = 0 then { retired s with psr := { s.psr with lm := false }, pc := s.pc + 2 }
      else { retired s with lco := s.lco - 1, pc := even s.lsa } := by
  rw [even_eq] at hpc hrepeat
  rw [even_eq]
  rcases redirect_cases { s.retire with delay := none } s.pc (s.delay.getD npc) with ⟨hr, ha, _⟩ | ⟨_, _, _, h⟩ | ⟨_, hn, _⟩
  · exact absurd ⟨hr, ha⟩ hrepeat
  · exact h
  · exact absurd ⟨hlm, hpc⟩ hn

/-- Settles O13. -/
theorem completion : Obligations.Completion := fun _ npc hrepeat hloop => complete_plain hrepeat hloop npc

theorem one_le_toNat_iff (a : Word) : 1 ≤ a.toNat ↔ a ≠ 0 := by
  rw [Nat.one_le_iff_ne_zero, Ne, Ne, ← BitVec.toNat_inj]
  rfl

theorem toNat_sub_one {a : Word} (h : a ≠ 0) : (a - 1).toNat = a.toNat - 1 := by
  rw [← one_le_toNat_iff] at h
  bv_omega

/-- One execution of the instruction at LSA that is repeated. -/
def repeatPass (u : State) : State := u.complete (u.pc + 2)

/-- The instruction at LEA of a loop, executed again. -/
def loopPass (u : State) : State := ({ u with pc := even u.lea } : State).complete (u.pc + 2)

/-- k passes of a repeat, no more than LCO says, go on repeating with k taken from LCO. -/
theorem repeatPasses {s : State} (hrm : s.psr.rm = true) (hpc : s.pc = even s.lsa) :
    ∀ k, k ≤ s.lco.toNat →
      let t := Nat.repeat repeatPass k s
      t.psr.rm = true ∧ t.pc = s.pc ∧ t.lco.toNat = s.lco.toNat - k ∧ t.lsa = s.lsa
  | 0, _ => ⟨hrm, rfl, rfl, rfl⟩
  | k + 1, hk => by
    obtain ⟨hrm', hpc', hlco', hlsa'⟩ := repeatPasses hrm hpc k (by omega)
    have hlco : (Nat.repeat repeatPass k s).lco ≠ 0 := by rw [← one_le_toNat_iff]; omega
    have hpass : Nat.repeat repeatPass (k + 1) s = _ := complete_repeat hrm' (by rw [hpc', hlsa', hpc]) _
    rw [if_neg hlco] at hpass
    rw [hpass]
    exact ⟨hrm', hpc', (toNat_sub_one hlco).trans (by omega), hlsa'⟩

/-- k passes of a loop, no more than LCO says, go on looping with k taken from LCO. -/
theorem loopPasses {s : State} (hlm : s.psr.lm = true) (hrm : s.psr.rm = false) :
    ∀ k, k ≤ s.lco.toNat →
      let t := Nat.repeat loopPass k s
      t.psr.lm = true ∧ t.psr.rm = false ∧ t.lco.toNat = s.lco.toNat - k ∧ t.lsa = s.lsa ∧ t.lea = s.lea ∧
        (0 < k → t.pc = even s.lsa)
  | 0, _ => ⟨hlm, hrm, rfl, rfl, rfl, fun h => absurd h (Nat.lt_irrefl 0)⟩
  | k + 1, hk => by
    obtain ⟨hlm', hrm', hlco', hlsa', hlea', _⟩ := loopPasses hlm hrm k (by omega)
    have hlco : (Nat.repeat loopPass k s).lco ≠ 0 := by rw [← one_le_toNat_iff]; omega
    have hpass : Nat.repeat loopPass (k + 1) s = _ :=
      complete_loop (s := { Nat.repeat loopPass k s with pc := even (Nat.repeat loopPass k s).lea }) hlm' rfl
        (fun h => by rw [hrm'] at h; exact absurd h.1 (by decide)) _
    rw [if_neg hlco] at hpass
    rw [hpass]
    exact ⟨hlm', hrm', (toNat_sub_one hlco).trans (by omega), hlsa', hlea', fun _ => congrArg even hlsa'⟩

theorem lco_eq_zero {s t : State} {k : Nat} (h : t.lco.toNat = s.lco.toNat - k) (hk : k = s.lco.toNat) : t.lco = 0 := by
  apply BitVec.eq_of_toNat_eq
  rw [h, hk, Nat.sub_self]
  rfl

theorem ite_zero_comm (a : Word) (x y : State) : (if a = 0 then x else y) = if 1 ≤ a.toNat then y else x := by
  by_cases h : a = 0
  · rw [if_pos h, if_neg (by rw [one_le_toNat_iff]; exact fun hn => hn h)]
  · rw [if_neg h, if_pos ((one_le_toNat_iff a).mpr h)]

/-- Settles O14: the check case by case, and the counts by induction on the passes. -/
theorem repeatAndLoopCheck : Obligations.RepeatAndLoopCheck := by
  refine ⟨fun s npc hrm hpc => ?_, fun s npc hlm hpc hrepeat => ?_, fun s k hrm hpc hk => ?_, fun s k hlm hrm hk => ?_⟩
  · rw [complete_repeat hrm hpc, ite_zero_comm]
  · rw [complete_loop hlm hpc hrepeat, ite_zero_comm]
  · obtain ⟨hrm', hpc', hlco', hlsa'⟩ := repeatPasses hrm hpc k hk
    refine ⟨hrm', hpc', hlco', hlsa', fun hlast => ?_⟩
    have hlco := lco_eq_zero hlco' hlast
    have hpass := complete_repeat hrm' (by rw [hpc', hlsa', hpc]) ((Nat.repeat repeatPass k s).pc + 2)
    rw [if_pos hlco] at hpass
    change (repeatPass (Nat.repeat repeatPass k s)).psr.rm = false ∧ (repeatPass (Nat.repeat repeatPass k s)).lco = 0 ∧
      (repeatPass (Nat.repeat repeatPass k s)).pc = _
    rw [repeatPass, hpass]
    exact ⟨rfl, hlco, congrArg (· + 2) hpc'⟩
  · obtain ⟨hlm', hrm', hlco', hlsa', hlea', hstart⟩ := loopPasses hlm hrm k hk
    refine ⟨hlm', hlco', hlsa', hlea', hstart, fun hlast => ?_⟩
    have hlco := lco_eq_zero hlco' hlast
    have hpass := complete_loop (s := { Nat.repeat loopPass k s with pc := even (Nat.repeat loopPass k s).lea }) hlm' rfl
      (fun h => by rw [hrm'] at h; exact absurd h.1 (by decide)) ((Nat.repeat loopPass k s).pc + 2)
    rw [if_pos hlco] at hpass
    change (loopPass (Nat.repeat loopPass k s)).psr.lm = false ∧ (loopPass (Nat.repeat loopPass k s)).lco = 0 ∧
      (loopPass (Nat.repeat loopPass k s)).pc = _
    rw [loopPass, hpass]
    exact ⟨rfl, hlco, congrArg (even · + 2) hlea'⟩

end Sys2Proof.Machine
end

section
/-! Proofs about memory, translation and the PSR as a word (20_memory.md R81 to R93, 10_state.md R28, R29). -/

namespace Sys2Proof.Machine
open Sys2Proof.Spec

/-! ## The bytes of a read (20_memory.md R81) -/

theorem byteOf_fourBytes (b : Nat → Byte) {k : Nat} (hk : k < 4) : byteOf (b 3 ++ b 2 ++ b 1 ++ b 0) k = b k :=
  BitVec.eq_of_getLsbD_eq fun j hj => by
    rw [byteOf, BitVec.getLsbD_extractLsb', decide_eq_true hj, Bool.true_and, getLsbD_fourBytes b hk hj]

theorem byteOf_twoBytes (b : Nat → Byte) {k : Nat} (hk : k < 2) : byteOf ((b 1 ++ b 0 : Half).setWidth 32) k = b k :=
  BitVec.eq_of_getLsbD_eq fun j hj => by
    rw [byteOf, BitVec.getLsbD_extractLsb', decide_eq_true hj, Bool.true_and, BitVec.getLsbD_setWidth,
      decide_eq_true (by omega), Bool.true_and]
    match k, hk with
    | 0, _ => rw [getLsbD_append_byte_low _ _ hj]
    | 1, _ => rw [getLsbD_append_byte_high, Nat.mul_zero, Nat.zero_add]

theorem byteOf_oneByte (b : Byte) : byteOf (b.setWidth 32) 0 = b :=
  BitVec.eq_of_getLsbD_eq fun j hj => by
    rw [byteOf, BitVec.getLsbD_extractLsb', decide_eq_true hj, Bool.true_and, BitVec.getLsbD_setWidth,
      decide_eq_true (by omega), Bool.true_and, Nat.mul_zero, Nat.zero_add]

/-- The byte of memory that bits 8j+7 to 8j of an access at p come from. -/
def State.lane (s : State) (z : Size) (p : Word) (j : Nat) : Byte :=
  s.byteAt (p + BitVec.ofNat 32 (z.index s.params.bigEndian j))

theorem physRead_lanes (s : State) (z : Size) (p : Word) : s.physRead z p =
    match z with
    | .byte => (s.lane .byte p 0).setWidth 32
    | .half => (s.lane .half p 1 ++ s.lane .half p 0 : Half).setWidth 32
    | .word => s.lane .word p 3 ++ s.lane .word p 2 ++ s.lane .word p 1 ++ s.lane .word p 0 := by
  cases z <;> cases hb : s.params.bigEndian <;> simp [State.physRead, State.lane, hb, Size.index, Size.bytes]

theorem byteOf_physRead_lane (s : State) (z : Size) (p : Word) {j : Nat} (hj : j < z.bytes.toNat) :
    byteOf (s.physRead z p) j = s.lane z p j := by
  rw [physRead_lanes]
  cases z with
  | byte =>
    obtain rfl : j = 0 := Nat.lt_one_iff.mp hj
    exact byteOf_oneByte _
  | half => exact byteOf_twoBytes (s.lane .half p) hj
  | word => exact byteOf_fourBytes (s.lane .word p) hj

/-- The byte at offset k of what a read gathers is the byte of memory there. -/
theorem byteOf_physRead (s : State) (z : Size) (p : Word) {k : Nat} (hk : k < z.bytes.toNat) :
    byteOf (s.physRead z p) (z.index s.params.bigEndian k) = s.byteAt (p + BitVec.ofNat 32 k) := by
  have hlt : z.index s.params.bigEndian k < z.bytes.toNat := by unfold Size.index; split <;> omega
  have hback : z.index s.params.bigEndian (z.index s.params.bigEndian k) = k := by unfold Size.index; split <;> omega
  rw [byteOf_physRead_lane s z p hlt, State.lane, hback]

theorem physRead_lt (s : State) (z : Size) (p : Word) : (s.physRead z p).toNat < 256 ^ z.bytes.toNat := by
  rw [physRead_lanes]
  cases z with
  | byte => exact BitVec.toNat_setWidth 32 _ ▸ Nat.lt_of_le_of_lt (Nat.mod_le _ _) (s.lane .byte p 0).isLt
  | half => exact BitVec.toNat_setWidth 32 _ ▸ Nat.lt_of_le_of_lt (Nat.mod_le _ _) (s.lane .half p 1 ++ s.lane .half p 0).isLt
  | word => exact BitVec.isLt _

theorem byteAt_physWrite_stored (s : State) (z : Size) (p v q : Word) :
    (s.physWrite z p v).byteAt q =
      if (q - p).toNat < z.bytes.toNat then storedByte s.params.bigEndian z v (q - p).toNat else s.byteAt q := by
  rw [byteAt_physWrite, storedByte_eq]

/-- Settles O17. -/
theorem memoryBytes : Obligations.MemoryBytes :=
  ⟨byteAt_physWrite_stored, fun _ _ _ _ => rfl, fun s z p =>
    ⟨physRead_lt s z p, fun k hk => by rw [storedByte_eq, byteOf_physRead s z p hk]⟩⟩

/-! ## Translation (20_memory.md R93) -/

/-- Whether an entry of the translation parameter names a page, kind and mode, as numbers. -/
def names (s : State) (k : AccessKind) (a : Word) (e : Translation) : Bool :=
  decide (e.page.toNat = a.toNat / 4096 ∧ e.kind = k ∧ e.user = s.psr.sv)

theorem toNat_page (a : Word) : (a.extractLsb' 12 20).toNat = a.toNat / 4096 := by
  rw [BitVec.extractLsb'_toNat, Nat.shiftRight_eq_div_pow]
  have := a.isLt
  omega

theorem names_eq (s : State) (k : AccessKind) (a : Word) :
    names s k a = fun t => t.page == a.extractLsb' 12 20 && t.kind == k && t.user == s.psr.sv := by
  funext e
  rw [names, Bool.eq_iff_iff]
  simp only [decide_eq_true_eq, Bool.and_eq_true, beq_iff_eq, and_assoc, ← toNat_page, BitVec.toNat_inj]

theorem translate_eq {s : State} (h : s.psr.me = false) (k : AccessKind) (a : Word) :
    s.translate k a =
      match s.params.translations.find? (names s k a) with
      | none => some a
      | some t => t.frame.map fun f => f ++ a.extractLsb' 0 12 := by
  rw [State.translate, if_neg (Bool.eq_false_iff.mp h), names_eq] <;> rfl

theorem frame_append (f : BitVec 20) (a : Word) : f ++ a.extractLsb' 0 12 = BitVec.ofNat 32 (f.toNat * 4096 + a.toNat % 4096) := by
  apply BitVec.eq_of_toNat_eq
  have hf := f.isLt
  have hlow : (a.extractLsb' 0 12).toNat = a.toNat % 4096 := by rw [BitVec.extractLsb'_toNat, Nat.shiftRight_zero]
  rw [BitVec.toNat_append, ← Nat.shiftLeft_add_eq_or_of_lt (a.extractLsb' 0 12).isLt, hlow, BitVec.toNat_ofNat,
    Nat.shiftLeft_eq]
  omega

theorem translate_me {s : State} (h : s.psr.me = true) (k : AccessKind) (a : Word) : s.translate k a = some a := by
  rw [State.translate, if_pos h]

/-- Settles O18: the first entry that names the page decides. -/
theorem translateRule : Obligations.TranslateRule := fun s k a => by
  refine ⟨fun hme => translate_me hme k a, fun hme hnone => ?_, fun before e after hme hlist hbefore he => ?_⟩
  · rw [translate_eq hme, List.find?_eq_none.mpr fun e hin => by rw [Bool.not_eq_true]; exact hnone e hin]
  · have hfind : s.params.translations.find? (names s k a) = some e := by
      rw [hlist, List.find?_append, List.find?_eq_none.mpr fun b hin => by rw [Bool.not_eq_true]; exact hbefore b hin,
        List.find?_cons_of_pos (p := names s k a) he, Option.none_or]
    rw [translate_eq hme, hfind]
    simp only [frame_append]

/-! ## The PSR as a word (10_state.md R28, R29) -/

/-- Bit k of PSR by the table of R28. -/
def Psr.bitAt (p : Psr) : Nat → Bool
  | 0 => p.n | 1 => p.z | 2 => p.v | 3 => p.c | 4 => p.ie | 6 => p.ds | 7 => p.mo
  | 8 => p.il.getLsbD 0 | 9 => p.il.getLsbD 1 | 10 => p.il.getLsbD 2 | 11 => p.il.getLsbD 3
  | 12 => p.sv | 13 => p.me | 14 => p.de | 15 => p.s | 16 => p.hc | 17 => p.lc
  | 20 => p.se | 21 => p.oc | 22 => p.sw
  | 24 => p.rc.getLsbD 0 | 25 => p.rc.getLsbD 1 | 26 => p.rc.getLsbD 2 | 27 => p.rc.getLsbD 3
  | 28 => p.pm | 29 => p.lm | 30 => p.rm | 31 => p.he
  | _ => false

theorem getLsbD_toWord (p : Psr) {k : Nat} (hk : k < 32) : p.toWord.getLsbD k = p.bitAt k := by
  simp only [Psr.toWord, BitVec.getLsbD_append, BitVec.getLsbD_ofBool]
  iterate 32
    obtain rfl | hk := Nat.eq_or_lt_of_le (Nat.le_of_lt_succ hk)
    · simp [Psr.bitAt]
  exact absurd hk (Nat.not_lt_zero k)

theorem mayWriteAll_eq (p : Psr) : mayWriteAll p = p.supervisorRights := by
  cases hsv : p.sv <;> cases hme : p.me <;> simp [mayWriteAll, Psr.supervisorRights, hsv, hme]

/-- Bit k after an explicit write: the bit written when the mask of the rights has it, else the old one. -/
theorem bitAt_write (p : Psr) (v : Word) {k : Nat} (hk : k < 32) :
    (p.write p.supervisorRights v).bitAt k = if (writableBits p).getLsbD k then v.getLsbD k else p.bitAt k := by
  unfold writableBits
  rw [mayWriteAll_eq]
  cases p.supervisorRights
  all_goals
    iterate 32
      obtain rfl | hk := Nat.eq_or_lt_of_le (Nat.le_of_lt_succ hk)
      · simp [Psr.write, Psr.bitAt]
    exact absurd hk (Nat.not_lt_zero k)

theorem getLsbD_writePsr (s : State) (v : Word) {k : Nat} (hk : k < 32) :
    (s.writePsr v).psr.toWord.getLsbD k =
      if (writableBits s.psr).getLsbD k then v.getLsbD k else s.psr.toWord.getLsbD k := by
  rw [getLsbD_toWord _ hk, getLsbD_toWord _ hk, ← bitAt_write s.psr v hk]
  rfl

theorem extractLsb'_toWord_rc (p : Psr) : p.toWord.extractLsb' 24 4 = p.rc := by
  refine BitVec.eq_of_getLsbD_eq fun k hk => ?_
  rw [BitVec.getLsbD_extractLsb', decide_eq_true hk, Bool.true_and, getLsbD_toWord _ (by omega)]
  iterate 4
    obtain rfl | hk := Nat.eq_or_lt_of_le (Nat.le_of_lt_succ hk)
    · rfl
  exact absurd hk (Nat.not_lt_zero k)

theorem extractLsb'_toWord_il (p : Psr) : p.toWord.extractLsb' 8 4 = p.il := by
  refine BitVec.eq_of_getLsbD_eq fun k hk => ?_
  rw [BitVec.getLsbD_extractLsb', decide_eq_true hk, Bool.true_and, getLsbD_toWord _ (by omega)]
  iterate 4
    obtain rfl | hk := Nat.eq_or_lt_of_le (Nat.le_of_lt_succ hk)
    · rfl
  exact absurd hk (Nat.not_lt_zero k)

theorem toNat_extract_four (w : Word) (k : Nat) : w.toNat / 2 ^ k % 16 = (w.extractLsb' k 4).toNat := by
  rw [BitVec.extractLsb'_toNat, Nat.shiftRight_eq_div_pow]

/-- The unused bits 23, 19, 18 and 5 read 0. -/
theorem toWord_unused (p : Psr) : p.toWord &&& 0x008C0020#32 = 0 := by
  refine BitVec.eq_of_getLsbD_eq fun k hk => ?_
  rw [BitVec.getLsbD_and, getLsbD_toWord _ hk]
  iterate 32
    obtain rfl | hk := Nat.eq_or_lt_of_le (Nat.le_of_lt_succ hk)
    · simp [Psr.bitAt]
  exact absurd hk (Nat.not_lt_zero k)

/-- Settles O19, bit by bit. -/
theorem psrWord : Obligations.PsrWord := by
  refine ⟨fun p => ?_, fun s v => ⟨BitVec.eq_of_getLsbD_eq fun k hk => ?_, rfl⟩⟩
  · have hrc : p.toWord.toNat / 16777216 % 16 = p.rc.toNat := by
      rw [← extractLsb'_toWord_rc]; exact toNat_extract_four p.toWord 24
    have hil : p.toWord.toNat / 256 % 16 = p.il.toNat := by
      rw [← extractLsb'_toWord_il]; exact toNat_extract_four p.toWord 8
    have hbit := fun k (hk : k < 32) => getLsbD_toWord p hk
    exact ⟨hbit 31 (by decide), hbit 30 (by decide), hbit 29 (by decide), hbit 28 (by decide), hrc, hbit 22 (by decide),
      hbit 21 (by decide), hbit 20 (by decide), hbit 17 (by decide), hbit 16 (by decide), hbit 15 (by decide),
      hbit 14 (by decide), hbit 13 (by decide), hbit 12 (by decide), hil, hbit 7 (by decide), hbit 6 (by decide),
      hbit 4 (by decide), hbit 3 (by decide), hbit 2 (by decide), hbit 1 (by decide), hbit 0 (by decide), toWord_unused p⟩
  · rw [getLsbD_writePsr s v hk, BitVec.getLsbD_or, BitVec.getLsbD_and, BitVec.getLsbD_and, BitVec.getLsbD_not,
      decide_eq_true hk]
    cases (writableBits s.psr).getLsbD k <;> simp

/-- psrset and psrclr write PSR back with one bit set or cleared (51_system_coproc.md R496, R497). -/
theorem getLsbD_withBit (w : Word) (n : BitVec 5) (on : Bool) {k : Nat} (hk : k < 32) :
    (if on then w ||| (1#32 <<< n.toNat) else w &&& ~~~(1#32 <<< n.toNat)).getLsbD k =
      if k = n.toNat then on else w.getLsbD k := by
  have hone : (1#32 <<< n.toNat).getLsbD k = decide (k = n.toNat) := by
    rw [BitVec.getLsbD_shiftLeft, BitVec.getLsbD_one, decide_eq_true hk]
    by_cases h : k = n.toNat
    · simp [h]
    · simp [h]; omega
  cases on
  · rw [if_neg Bool.false_ne_true, BitVec.getLsbD_and, BitVec.getLsbD_not, decide_eq_true hk, hone]
    by_cases h : k = n.toNat
    · rw [if_pos h, decide_eq_true h]; simp
    · rw [if_neg h, decide_eq_false h]; simp
  · rw [if_pos rfl, BitVec.getLsbD_or, hone]
    by_cases h : k = n.toNat
    · rw [if_pos h, decide_eq_true h]; simp
    · rw [if_neg h, decide_eq_false h]; simp

/-- Settles O50. -/
theorem psrBitOperations : Obligations.PsrBitOperations := fun s n on => by
  refine ⟨s.writePsr (if on then s.psr.toWord ||| (1#32 <<< n.toNat) else s.psr.toWord &&& ~~~(1#32 <<< n.toNat)), ?_, rfl,
    fun k hk => ?_⟩
  · cases on
    · apply runsTo_of_issue (i := .psrclr n) <;> rfl
    · apply runsTo_of_issue (i := .psrset n) <;> rfl
  · rw [getLsbD_writePsr s _ hk, getLsbD_withBit _ n on hk]
    by_cases h : k = n.toNat <;> cases (writableBits s.psr).getLsbD k <;> simp [h]

end Sys2Proof.Machine
end

section
/-! Proofs about operands and the record of pending prefixes (52_ext.md R521 to R532). -/

namespace Sys2Proof.Machine
open Sys2Proof.Spec

/-! ## Bit vectors put together, as numbers -/

theorem toNat_append_add {m n : Nat} (x : BitVec m) (y : BitVec n) : (x ++ y).toNat = x.toNat * 2 ^ n + y.toNat := by
  rw [BitVec.toNat_append, ← Nat.shiftLeft_add_eq_or_of_lt y.isLt, Nat.shiftLeft_eq]

theorem toInt_append_add {m n : Nat} (x : BitVec (m + 1)) (y : BitVec n) : (x ++ y).toInt = x.toInt * 2 ^ n + y.toNat := by
  rw [BitVec.toInt_append, if_neg (by simp), Int.mul_comm]

theorem toNat_setWidth_word {m : Nat} (x : BitVec m) (h : m ≤ 32) : (x.setWidth 32).toNat = x.toNat :=
  BitVec.toNat_setWidth_of_le h

theorem toInt_signExtend_word {m : Nat} (x : BitVec m) (h : m ≤ 32) : (x.signExtend 32).toInt = x.toInt :=
  BitVec.toInt_signExtend_of_le h

/-- The scaled displacement clears the bits below the size. -/
theorem toNat_scaled (v : Word) (z : Size) : (v &&& ~~~(z.bytes - 1)).toNat = v.toNat / z.bytes.toNat * z.bytes.toNat := by
  cases z with
  | byte => exact toNat_and_allOnes_shiftLeft v 0
  | half => exact toNat_and_allOnes_shiftLeft v 1
  | word => exact toNat_and_allOnes_shiftLeft v 2

theorem bytes_le (z : Size) : z.bytes.toNat ≤ 4 := by cases z <;> decide

/-! ## The forms for no, one and two pending immediates (52_ext.md R523 to R528) -/

section Forms

variable {e : Ext}

theorem forms_none (h : e.imm = []) (i : BitVec 6) (j : BitVec 8) :
    (e.imm6 i).toNat = i.toNat ∧ (e.sign6 i).toInt = i.toInt ∧ (e.sign8 j).toInt = 2 * j.toInt ∧ e.immDisp = 0 ∧
      ∀ z : Size, (e.baseDisp z i).toNat = i.toNat * z.bytes.toNat := by
  simp only [Ext.imm6, Ext.sign6, Ext.sign8, Ext.immDisp, Ext.zero13, Ext.baseDisp, h]
  refine ⟨toNat_setWidth_word i (by decide), toInt_signExtend_word i (by decide), ?_, rfl, fun z => ?_⟩
  · rw [toInt_signExtend_word _ (by decide), toInt_append_add]
    exact (Int.add_zero _).trans (Int.mul_comm _ _)
  · have hi := i.isLt
    have hz := bytes_le z
    rw [BitVec.toNat_mul, toNat_setWidth_word i (by decide)]
    exact Nat.mod_eq_of_lt (Nat.lt_of_le_of_lt (Nat.mul_le_mul (Nat.le_of_lt hi) hz) (by decide))

theorem forms_one {a : BitVec 13} (h : e.imm = [a]) (i : BitVec 6) (j : BitVec 8) :
    (e.imm6 i).toNat = a.toNat * 64 + i.toNat ∧ (e.sign6 i).toInt = a.toInt * 64 + i.toNat ∧
      (e.sign8 j).toInt = a.toInt * 512 + 2 * j.toNat ∧ e.immDisp.toNat = a.toNat ∧
      ∀ z : Size, (e.baseDisp z i).toNat = (a.toNat * 64 + i.toNat) / z.bytes.toNat * z.bytes.toNat := by
  simp only [Ext.imm6, Ext.sign6, Ext.sign8, Ext.immDisp, Ext.zero13, Ext.baseDisp, h, Option.getD_some]
  have himm : ((a ++ i).setWidth 32).toNat = a.toNat * 64 + i.toNat := by
    exact (toNat_setWidth_word _ (by decide)).trans (toNat_append_add _ _)
  refine ⟨himm, ?_, ?_, toNat_setWidth_word a (by decide), fun z => ?_⟩
  · exact (toInt_signExtend_word _ (by decide)).trans (toInt_append_add _ _)
  · rw [toInt_signExtend_word _ (by decide), toInt_append_add, toInt_append_add]
    simp only [BitVec.toNat_zero]
    omega
  · rw [toNat_scaled, himm]

theorem forms_two {a b : BitVec 13} (h : e.imm = [a, b]) (i : BitVec 6) (j : BitVec 8) :
    (e.imm6 i).toNat = a.toNat * 524288 + b.toNat * 64 + i.toNat ∧
      (e.sign6 i).toInt = a.toInt * 524288 + b.toNat * 64 + i.toNat ∧
      (e.sign8 j).toNat = a.toNat / 8 * 4194304 + b.toNat * 512 + 2 * j.toNat ∧
      e.immDisp.toNat = a.toNat * 8192 + b.toNat ∧
      ∀ z : Size, (e.baseDisp z i).toNat =
        (a.toNat * 524288 + b.toNat * 64 + i.toNat) / z.bytes.toNat * z.bytes.toNat := by
  simp only [Ext.imm6, Ext.sign6, Ext.sign8, Ext.immDisp, Ext.zero13, Ext.baseDisp, h, Option.getD_some]
  have himm : (a ++ b ++ i).toNat = a.toNat * 524288 + b.toNat * 64 + i.toNat := by
    rw [toNat_append_add, toNat_append_add]; omega
  refine ⟨himm, ?_, ?_, ?_, fun z => ?_⟩
  · refine (toInt_append_add (a ++ b) i).trans ?_
    rw [toInt_append_add]
    omega
  · have hhigh : (a.extractLsb' 3 10).toNat = a.toNat / 8 := by
      have ha := a.isLt
      rw [BitVec.extractLsb'_toNat, Nat.shiftRight_eq_div_pow]
      omega
    rw [toNat_append_add, toNat_append_add, toNat_append_add, hhigh]
    simp only [BitVec.toNat_zero]
    omega
  · exact (toNat_setWidth_word _ (by decide)).trans (toNat_append_add _ _)
  · exact (toNat_scaled _ z).trans (by rw [himm])

end Forms

/-- The register forms without an immediate: the register of `ext %rs`, when there is one, takes part (R526, R532). -/
theorem registerForms {s : State} (h : s.ext.imm = []) (z : Size) (rd rs : Reg) :
    match s.ext.rs with
    | none =>
      s.extDisp = 0 ∧ s.postIncrement z = z.bytes ∧ s.sources rd rs = (s.reg rd, s.reg rs) ∧
      s.sourcesImm rd rs = (s.reg rd, s.reg rs) ∧ s.sourcesReg rd rs = (s.reg rd, s.reg rs) ∧
      s.sourcesDp rd = (s.reg rd, s.dp) ∧ s.shiftSource rd = s.reg rd
    | some r =>
      s.extDisp = s.reg r ∧ s.postIncrement z = s.reg r ∧ s.sources rd rs = (s.reg rs, s.reg r) ∧
      s.sourcesImm rd rs = (s.reg rd, s.reg rs) ∧ s.sourcesReg rd rs = (s.reg rs, s.reg r) ∧
      s.sourcesDp rd = (s.dp, s.reg r) ∧ s.shiftSource rd = s.reg r := by
  cases hrs : s.ext.rs <;>
    simp [State.extDisp, State.postIncrement, State.sources, State.sourcesImm, State.sourcesReg, State.sourcesDp,
      State.shiftSource, Ext.effectiveReg, Ext.immDisp, Ext.zero13, Ext.signed13, h, hrs]

/-- With an immediate pending the displacement and the increment are its, and a pending register is ignored (R532). -/
theorem immediateForms {s : State} {disp inc : Word} (hne : s.ext.imm ≠ []) (hzero : s.ext.zero13 = some disp)
    (hsigned : s.ext.signed13 = some inc) (z : Size) (rd rs : Reg) :
    s.extDisp = disp ∧ s.postIncrement z = inc ∧ s.sources rd rs = (s.reg rs, disp) ∧
      s.sourcesImm rd rs = (s.reg rs, disp) ∧ s.sourcesReg rd rs = (s.reg rd, s.reg rs) ∧
      s.sourcesDp rd = (s.dp, disp) ∧ s.shiftSource rd = s.reg rd := by
  have hreg : s.ext.effectiveReg = none := by
    unfold Ext.effectiveReg
    split
    · next h => exact absurd h hne
    · rfl
  simp [State.extDisp, State.postIncrement, State.sources, State.sourcesImm, State.sourcesReg, State.sourcesDp,
    State.shiftSource, Ext.immDisp, hreg, hzero, hsigned]

/-- Settles O20, by the number of pending immediates. -/
theorem operandForms : Obligations.OperandForms := by
  refine ⟨fun e i j h => forms_none h i j, fun e a i j h => forms_one h i j, fun e a b i j h => forms_two h i j,
    fun s z rd rs h => registerForms h z rd rs, fun s z rd rs disp inc h => ?_⟩
  suffices hforms : s.ext.imm ≠ [] ∧ s.ext.zero13 = some disp ∧ ∃ w, s.ext.signed13 = some w ∧ w.toInt = inc by
    obtain ⟨hne, hzero, w, hsigned, rfl⟩ := hforms
    obtain ⟨hdisp, hinc, hrest⟩ := immediateForms hne hzero hsigned z rd rs
    exact ⟨hdisp, by rw [hinc], hrest⟩
  rcases h with ⟨a, himm, hdisp, hinc⟩ | ⟨a, b, himm, hdisp, hinc⟩
  · refine ⟨by simp [himm], ?_, a.signExtend 32, by simp [Ext.signed13, himm], ?_⟩
    · simp only [Ext.zero13, himm, Option.some.injEq]
      exact BitVec.eq_of_toNat_eq (by rw [toNat_setWidth_word a (by decide), hdisp])
    · rw [toInt_signExtend_word a (by decide), hinc]
  · refine ⟨by simp [himm], ?_, (a ++ b).signExtend 32, by simp [Ext.signed13, himm], ?_⟩
    · simp only [Ext.zero13, himm, Option.some.injEq]
      exact BitVec.eq_of_toNat_eq
        (((toNat_setWidth_word _ (by decide)).trans (toNat_append_add _ _)).trans hdisp.symm)
    · rw [toInt_signExtend_word _ (by decide), toInt_append_add, hinc]
      rfl

/-! ## The eighteen prefixes (52_ext.md R522, R540 to R544) -/

theorem skips_of_isPrefix {i : Instr} (h : isPrefix i = true) (s : State) : s.skips i = false := by
  rw [State.skips, placement_conditional, h, Bool.or_true]
  rfl

/-- A record that is extended when it may be gives the two answers the rule of a series has. -/
theorem prefixes_of_record {i : Instr} {s : State} {legal : Prop} {e : Ext} {record : Option Ext}
    {effect : State → Result} (hprefix : isPrefix i = true) (hexec : exec i s = s.issue i effect)
    (heffect : effect s = s.takePrefixRecord record) (hlegal : legal → record = some (counted s e))
    (hillegal : ¬ legal → record = none) : Prefixes i s legal e := fun hplace => by
  rw [hexec, issue_free ⟨hplace, skips_of_isPrefix hprefix s⟩, heffect]
  exact ⟨fun h => by rw [hlegal h]; rfl, fun h => by rw [hillegal h]; rfl⟩

theorem takesOperand_iff (e : Ext) : e.takesOperand = true ↔ e.imm = [] ∧ e.rs = none ∧ e.shift = none := by
  simp [Ext.takesOperand, and_assoc]

/-- `ext imm13` (R522, R532). -/
theorem addImm_legal {s : State} (h : s.ext.rs = none ∨ (s.ext.shift ≠ none ∧ s.ext.cond = none)) (x : BitVec 13) :
    s.ext.addImm s.pc x =
      some (counted s { s.ext with imm := if s.ext.imm = [] then [x] else [s.ext.imm.headD 0, x] }) := by
  unfold Ext.addImm
  dsimp only
  rw [if_pos (by simpa [Option.isSome_iff_ne_none] using h)]
  cases himm : s.ext.imm <;> simp [counted, Ext.begun]

theorem addImm_illegal {s : State} (h : ¬ (s.ext.rs = none ∨ (s.ext.shift ≠ none ∧ s.ext.cond = none))) (x : BitVec 13) :
    s.ext.addImm s.pc x = none := by
  unfold Ext.addImm
  dsimp only
  rw [if_neg (by simpa [Option.isSome_iff_ne_none] using h)]

section Operand

variable {s : State}

/-- A register or postshift comes first or after `ext cond` (R522). -/
theorem operandPrefix {i : Instr} {e : Ext} {effect : State → Result} (hprefix : isPrefix i = true)
    (hexec : exec i s = s.issue i effect)
    (heffect : effect s = s.takePrefixRecord (if s.ext.takesOperand then some (counted s e) else none)) :
    Prefixes i s (s.ext.imm = [] ∧ s.ext.rs = none ∧ s.ext.shift = none) e :=
  prefixes_of_record hprefix hexec heffect (fun h => if_pos ((takesOperand_iff _).mpr h))
    fun h => if_neg (by rwa [takesOperand_iff])

/-- `ext cond` comes first (R522). -/
theorem condPrefix {i : Instr} {c : Cond} {effect : State → Result} (hprefix : isPrefix i = true)
    (hexec : exec i s = s.issue i effect)
    (heffect : effect s = s.takePrefixRecord (s.ext.addCond s.pc c)) :
    Prefixes i s (s.ext.count = 0) { s.ext with cond := some c } :=
  prefixes_of_record hprefix hexec heffect (fun h => if_pos h) fun h => if_neg h

end Operand

/-- Settles O21, each one by when its series is legal. -/
theorem prefixRecords : Obligations.PrefixRecords := fun s r n x => by
  refine ⟨prefixes_of_record rfl (by rfl) (by rfl) (fun h => addImm_legal h x) fun h => addImm_illegal h x,
    ?_, ?_, ?_, ?_, ?_, ?_, ?_, ?_, ?_, ?_, ?_, ?_, ?_, ?_, ?_, ?_, ?_⟩
  iterate 7 (apply operandPrefix rfl <;> rfl)
  iterate 10 (apply condPrefix rfl <;> rfl)

end Sys2Proof.Machine
end

section
/-! Proofs about the instructions on registers and flags: moves, special registers, logic, addition and subtraction, conditions
(40_data_transfer.md, 41_logic.md, 42_arith.md, 48_branch.md R392). -/

namespace Sys2Proof.Machine
open Sys2Proof.Spec

/-! ## Moves -/

/-- Settles O22. -/
theorem registerMoves : Obligations.RegisterMoves := fun s rd rs i => by
  simp only [widened_eq]
  refine ⟨?_, ?_, ?_, ?_, ?_, ?_⟩ <;> apply runsTo_of_issue <;> rfl

/-! ## Special registers (10_state.md R47, R48) -/

/-- A statement about all sixteen 4-bit numbers, case by case. -/
theorem forall_four_bits {P : BitVec 4 → Prop} (h0 : P 0) (h1 : P 1) (h2 : P 2) (h3 : P 3) (h4 : P 4) (h5 : P 5) (h6 : P 6)
    (h7 : P 7) (h8 : P 8) (h9 : P 9) (h10 : P 10) (h11 : P 11) (h12 : P 12) (h13 : P 13) (h14 : P 14) (h15 : P 15) :
    ∀ n, P n
  | 0 => h0 | 1 => h1 | 2 => h2 | 3 => h3 | 4 => h4 | 5 => h5 | 6 => h6 | 7 => h7 | 8 => h8 | 9 => h9 | 10 => h10
  | 11 => h11 | 12 => h12 | 13 => h13 | 14 => h14 | 15 => h15
  | ⟨⟨_ + 16, hlt⟩⟩ => absurd hlt (by omega)

theorem toNat_idir : idir.toNat = 0x04000000 + Config.idirRevision.toNat * 65536 := by
  have hhigh : (0x04#8 ++ Config.idirRevision).toNat = 4 * 2 ^ 8 + Config.idirRevision.toNat := toNat_append_add _ _
  have hlow : idir.toNat = (0x04#8 ++ Config.idirRevision).toNat * 2 ^ 16 + (0x0000#16).toNat :=
    toNat_append_add _ _
  rw [hlow, hhigh, show (0x0000#16).toNat = 0 from rfl]
  generalize Config.idirRevision.toNat = revision
  omega

theorem idir_eq : BitVec.ofNat 32 (0x04000000 + Config.idirRevision.toNat * 65536) = idir := by
  rw [← toNat_idir]
  exact BitVec.ofNat_toNat 32 idir

theorem specialRead_eq (s : State) (n : SReg) : specialRead s n = s.readSpecial n := by
  revert n
  apply forall_four_bits
  case h0 =>
    change (if s.dsWindow = 0 then _ else _) = (if s.dsWindow = 0 then _ else _)
    split <;> rfl
  case h10 => exact congrArg (·, s) idir_eq
  all_goals rfl

theorem specialRead_pc (s : State) (n : SReg) : (specialRead s n).2.pc = s.pc := by
  revert n
  apply forall_four_bits
  case h0 => exact (apply_ite (fun r : Word × State => r.2.pc) _ _ _).trans (ite_self _)
  all_goals rfl

/-- The hazard of a read within the macclr window (70_reset_and_hazards.md R643). -/
theorem macclrHazard_iff (s : State) (n : SReg) :
    s.macclrHazard n = true ↔ 0 < s.macWindow ∧ (n = 0 ∨ n = 2 ∨ n = 3) := by
  simp [State.macclrHazard, or_assoc]

/-- Settles O23. -/
theorem readSpecialRegister : Obligations.ReadSpecialRegister := fun s rd n => by
  have hpc := specialRead_pc s n
  rw [specialRead_eq] at hpc ⊢
  refine ⟨fun h => ?_, fun h => ?_⟩
  · apply runsTo_of_issue
    · rfl
    · refine (if_neg (mt (macclrHazard_iff s n).mp h)).trans ?_
      rw [← hpc]
      rfl
  · apply exec_of_issue
    · rfl
    · exact if_pos ((macclrHazard_iff s n).mpr h)

theorem loopWriteHazard_iff (s : State) (n : SReg) :
    s.loopWriteHazard n = true ↔
      (s.psr.lm = true ∧ (n = 4 ∨ n = 5 ∨ n = 6)) ∨ (s.psr.rm = true ∧ (n = 4 ∨ n = 5)) := by
  simp [State.loopWriteHazard, or_assoc]

theorem nmiMasked_and_true (t : State) : { t with nmiMasked := t.nmiMasked && true } = t := by
  rw [Bool.and_true]

theorem nmiMasked_and_false (t : State) : { t with nmiMasked := t.nmiMasked && false } = { t with nmiMasked := false } := by
  rw [Bool.and_false]

theorem rightsWrite_eq (s u : State) :
    (if mayWriteAll s.psr then u else s) = if s.psr.supervisorRights then u else s := by
  rw [mayWriteAll_eq]

/-- What `ld.w %sd,%rs` writes, with the NMI mask it lifts when it names the stack pointer. -/
theorem specialWritten_eq (s : State) (n : SReg) (v : Word) :
    { s.setSpecial n v with nmiMasked := (s.setSpecial n v).nmiMasked && n != 1#4 } = specialWritten s n v := by
  revert n
  apply forall_four_bits
  case h1 => exact nmiMasked_and_false _
  case h8 => exact (nmiMasked_and_true _).trans (rightsWrite_eq s _).symm
  case h14 => exact (nmiMasked_and_true _).trans (rightsWrite_eq s _).symm
  all_goals exact nmiMasked_and_true _

@[simp] theorem setSpecial_pc (s : State) (n : SReg) (v : Word) : (s.setSpecial n v).pc = s.pc := by
  revert n
  apply forall_four_bits
  case h1 => exact setSp_pc s v
  case h8 => exact (apply_ite State.pc _ _ _).trans (ite_self _)
  case h14 => exact (apply_ite State.pc _ _ _).trans (ite_self _)
  all_goals rfl

/-- Settles O24. -/
theorem writeSpecialRegister : Obligations.WriteSpecialRegister := fun s rs n => by
  rw [← specialWritten_eq]
  refine ⟨fun h => ?_, fun h => ?_⟩
  · apply runsTo_of_issue
    · rfl
    · refine (if_neg (mt (loopWriteHazard_iff s n).mp h)).trans ?_
      rw [done_eq]
      simp only [setSpecial_pc]
  · apply exec_of_issue
    · rfl
    · exact if_pos ((loopWriteHazard_iff s n).mpr h)

/-! ## Logic (41_logic.md R230) -/

theorem logicFlags_eq (p : Psr) (res : Word) : logicFlags p res = p.logic res := by
  have hoc : (if p.oc then false else p.v) = (p.v && !p.oc) := by cases p.oc <;> simp
  rw [logicFlags, Psr.logic, hoc, BitVec.msb_eq_toInt]
  rfl

theorem ones_xor (x : Word) : 0xFFFFFFFF#32 ^^^ x = ~~~x := BitVec.allOnes_xor

/-- Settles O30. -/
theorem logicOperations : Obligations.LogicOperations := fun s rd rs i => by
  simp only [afterLogic, logicFlags_eq, ones_xor]
  refine ⟨?_, ?_, ?_, ?_, ?_, ?_, ?_, ?_⟩ <;> apply runsTo_of_issue <;> rfl

/-! ## Addition and subtraction (42_arith.md R250, R253) -/

theorem toInt_cases (a : Word) :
    (a.msb = false ∧ a.toInt = a.toNat ∧ a.toNat < 2147483648) ∨
      (a.msb = true ∧ a.toInt = a.toNat - 4294967296 ∧ 2147483648 ≤ a.toNat) := by
  have ha := a.isLt
  rw [BitVec.toInt_eq_toNat_cond, BitVec.msb_eq_decide]
  by_cases h : 2147483648 ≤ a.toNat
  · right; simp [h]; omega
  · left; simp [h]; omega

theorem ofInt_congr {x y : Int} (h : x % 4294967296 = y % 4294967296) : BitVec.ofInt 32 x = BitVec.ofInt 32 y := by
  apply BitVec.eq_of_toInt_eq
  rw [BitVec.toInt_ofInt, BitVec.toInt_ofInt]
  rw [← Int.emod_bmod x, ← Int.emod_bmod y]
  exact congrArg (Int.bmod · _) h

theorem ofNat_eq_ofInt (n : Nat) : BitVec.ofNat 32 n = BitVec.ofInt 32 n := (BitVec.ofInt_natCast 32 n).symm

/-- A sum is the same number modulo 2^32 whether its terms are read unsigned or signed. -/
theorem add_value (a b : Word) (c : Nat) :
    BitVec.ofNat 32 (a.toNat + b.toNat + c) = BitVec.ofInt 32 (a.toInt + b.toInt + c) := by
  rw [ofNat_eq_ofInt]
  apply ofInt_congr
  rcases toInt_cases a with ⟨_, ha, _⟩ | ⟨_, ha, _⟩ <;> rcases toInt_cases b with ⟨_, hb, _⟩ | ⟨_, hb, _⟩ <;> omega

theorem sub_value (a b : Word) (c : Nat) :
    BitVec.ofInt 32 (a.toNat - b.toNat - c : Int) = BitVec.ofInt 32 (a.toInt - b.toInt - c) := by
  apply ofInt_congr
  rcases toInt_cases a with ⟨_, ha, _⟩ | ⟨_, ha, _⟩ <;> rcases toInt_cases b with ⟨_, hb, _⟩ | ⟨_, hb, _⟩ <;> omega

/-- The sign bit of an integer narrowed to 32 bits. -/
theorem msb_ofInt (x : Int) : (BitVec.ofInt 32 x).msb = decide (2147483648 ≤ x % 4294967296) := by
  rw [BitVec.msb_eq_decide, BitVec.toNat_ofInt]
  apply decide_eq_decide.mpr
  omega

/-- The sum has overflowed when the operands have one sign and it has the other (10_state.md R34). -/
theorem add_overflow (a b : Word) (c : Bool) :
    (a.msb == b.msb && (BitVec.ofInt 32 (a.toInt + b.toInt + c.toNat)).msb != a.msb) =
      decide (a.toInt + b.toInt + c.toNat < -2147483648 ∨ 2147483647 < a.toInt + b.toInt + c.toNat) := by
  have hc := Bool.toNat_le c
  rw [msb_ofInt, Bool.eq_iff_iff]
  rcases toInt_cases a with ⟨hma, ha, _⟩ | ⟨hma, ha, _⟩ <;> rcases toInt_cases b with ⟨hmb, hb, _⟩ | ⟨hmb, hb, _⟩ <;>
    simp [hma, hmb] <;> omega

theorem sub_overflow (a b : Word) (c : Bool) :
    (a.msb != b.msb && (BitVec.ofInt 32 (a.toInt - b.toInt - c.toNat)).msb != a.msb) =
      decide (a.toInt - b.toInt - c.toNat < -2147483648 ∨ 2147483647 < a.toInt - b.toInt - c.toNat) := by
  have hc := Bool.toNat_le c
  rw [msb_ofInt, Bool.eq_iff_iff]
  rcases toInt_cases a with ⟨hma, ha, _⟩ | ⟨hma, ha, _⟩ <;> rcases toInt_cases b with ⟨hmb, hb, _⟩ | ⟨hmb, hb, _⟩ <;>
    simp [hma, hmb] <;> omega

/-- The flags of a sum, from the exact sum of the signed operands. -/
theorem addFlags_eq (p : Psr) (a b : Word) (c : Bool) : addFlags p a b c = p.arith (add32 a b c) := by
  unfold addFlags Psr.arith add32
  dsimp only
  rw [add_value, add_overflow, BitVec.msb_eq_toInt]
  rfl

/-- The flags of a difference, from the exact difference of the signed operands. -/
theorem subFlags_eq (p : Psr) (a b : Word) (c : Bool) : subFlags p a b c = p.arith (sub32 a b c) := by
  have hborrow : decide ((a.toNat : Int) - b.toNat - c.toNat < 0) = decide (a.toNat < b.toNat + c.toNat) :=
    decide_eq_decide.mpr (by omega)
  unfold subFlags Psr.arith sub32
  dsimp only
  rw [sub_value, sub_overflow, BitVec.msb_eq_toInt, hborrow]
  rfl

theorem postshifted_eq (shift : Option (ShiftOp × BitVec 2)) (res : Word) : postshifted shift res = postshift shift res := by
  match shift with
  | none => rfl
  | some (.sra, n) =>
    simp only [postshifted, postshift]
    rw [BitVec.sshiftRight_eq, Int.shiftRight_eq_div_pow]
    norm_cast
  | some (.srl, n) =>
    simp only [postshifted, postshift]
    rw [← Nat.shiftRight_eq_div_pow, ← BitVec.toNat_ushiftRight, BitVec.ofNat_toNat, BitVec.setWidth_eq]
  | some (.sll, n) =>
    simp only [postshifted, postshift]
    rw [← Nat.shiftLeft_eq]
    exact BitVec.eq_of_toNat_eq (by rw [BitVec.toNat_shiftLeft, BitVec.toNat_ofNat])

theorem immediateShift_eq (e : Ext) : (if e.rs = none then e.shift else none) = e.immediateShift := by
  unfold Ext.immediateShift
  cases e.rs <;> rfl

theorem afterAdd_done (s : State) (rd : Reg) (shift : Option (ShiftOp × BitVec 2)) (a b : Word) (c : Bool) :
    s.putArith rd shift (add32 a b c) = .next ((afterAdd s rd shift a b c).complete (s.pc + 2)) := by
  rw [afterAdd, addFlags_eq, postshifted_eq]
  rfl

theorem afterSub_done (s : State) (rd : Reg) (shift : Option (ShiftOp × BitVec 2)) (a b : Word) (c : Bool) :
    s.putArith rd shift (sub32 a b c) = .next ((afterSub s rd shift a b c).complete (s.pc + 2)) := by
  rw [afterSub, subFlags_eq, postshifted_eq]
  rfl

theorem compare_done (s : State) (a b : Word) :
    s.compare a b = .next (({ s with psr := subFlags s.psr a b false } : State).complete (s.pc + 2)) := by
  rw [subFlags_eq]
  rfl

theorem add_four_times (a : Word) (i : BitVec 10) : a + i.setWidth 32 * 4 = BitVec.ofNat 32 (a.toNat + 4 * i.toNat) := by
  apply BitVec.eq_of_toNat_eq
  rw [BitVec.toNat_add, BitVec.toNat_mul, toNat_setWidth_word i (by decide), BitVec.toNat_ofNat,
    show (4 : Word).toNat = 4 from rfl]
  omega

theorem sub_four_times (a : Word) (i : BitVec 10) :
    a - i.setWidth 32 * 4 = BitVec.ofInt 32 (a.toNat - 4 * i.toNat : Int) := by
  have hi := i.isLt
  apply BitVec.eq_of_toNat_eq
  rw [BitVec.toNat_sub, BitVec.toNat_mul, toNat_setWidth_word i (by decide), BitVec.toNat_ofInt,
    show (4 : Word).toNat = 4 from rfl]
  omega

theorem add_eq_ofNat (a b : Word) : a + b = BitVec.ofNat 32 (a.toNat + b.toNat) := rfl

theorem setSp_done (s : State) (v : Word) : (s.setSp v).done = .next ((withSp s v).complete (s.pc + 2)) := by
  rw [done_eq, setSp_pc, withSp_eq]

/-- Settles O28. -/
theorem additionSubtraction : Obligations.AdditionSubtraction := by
  refine ⟨fun s rd rs i => ?_, fun s rd i => ?_⟩
  · simp only [immediateShift_eq]
    refine ⟨?_, ?_, ?_, ?_, ?_, ?_, ?_, ?_⟩ <;> (apply runsTo_of_issue; rfl)
    · exact afterAdd_done ..
    · exact afterAdd_done ..
    · exact afterAdd_done ..
    · exact afterSub_done ..
    · exact afterSub_done ..
    · exact afterSub_done ..
    · exact compare_done ..
    · exact compare_done ..
  · simp only [immediateShift_eq, postshifted_eq, ← add_eq_ofNat]
    refine ⟨?_, ?_, ?_⟩ <;> (apply runsTo_of_issue; rfl)
    · rw [setSp_done, add_four_times]; rfl
    · rw [setSp_done, sub_four_times]; rfl
    · rfl

/-! ## Conditions (48_branch.md R392 to R394) -/

theorem branch_eq_branched (s : State) (d taken : Bool) (target : Word) :
    s.branch d taken target = .next (branched s d taken target) := by
  rw [branch_eq]
  cases d <;> cases taken <;> rfl

theorem toNat_word_lt (a : Word) : a.toNat < 4294967296 := a.isLt

theorem subFlags_z (p : Psr) (a b : Word) : (subFlags p a b false).z = decide (a.toNat = b.toNat) := by
  refine decide_eq_decide.mpr ?_
  rw [← BitVec.toNat_inj, BitVec.toNat_ofInt]
  have hb := toNat_word_lt b
  rcases toInt_cases a with ⟨_, ha, _⟩ | ⟨_, ha, _⟩ <;> rcases toInt_cases b with ⟨_, hb, _⟩ | ⟨_, hb, _⟩ <;>
    simp only [ha, hb, Bool.toNat_false, BitVec.toNat_zero] <;> omega

theorem subFlags_c (p : Psr) (a b : Word) : (subFlags p a b false).c = decide (a.toNat < b.toNat) := rfl

/-- N differs from V exactly when the signed difference is below 0. -/
theorem subFlags_n_eq_v (p : Psr) (a b : Word) :
    (subFlags p a b false).n = (subFlags p a b false).v ↔ b.toInt ≤ a.toInt := by
  have hn : (subFlags p a b false).n = decide (2147483648 ≤ (a.toInt - b.toInt - 0) % 4294967296) := by
    rw [← msb_ofInt, BitVec.msb_eq_toInt]; rfl
  have hv : (subFlags p a b false).v =
      decide (a.toInt - b.toInt - 0 < -2147483648 ∨ 2147483647 < a.toInt - b.toInt - 0) := rfl
  rw [hn, hv, decide_eq_decide]
  rcases toInt_cases a with ⟨_, ha, _⟩ | ⟨_, ha, _⟩ <;> rcases toInt_cases b with ⟨_, hb, _⟩ | ⟨_, hb, _⟩ <;> omega

/-- The flags after `cmp` in the words of a comparison. -/
theorem conditionTrue_subFlags (c : Cond) (p : Psr) (a b : Word) :
    conditionTrue c (subFlags p a b false) = true ↔ comparison c a b := by
  have hword : a.toNat = b.toNat ↔ a = b := BitVec.toNat_inj
  have hint : a.toInt = b.toInt ↔ a.toNat = b.toNat := BitVec.toInt_inj.trans BitVec.toNat_inj.symm
  cases c <;> simp only [conditionTrue, comparison, decide_eq_true_eq, decide_eq_false_iff_not, subFlags_z, subFlags_c,
    subFlags_n_eq_v, Ne, ← hword] <;> omega

/-- Conditions look at C, V, Z and N, which completion keeps. -/
theorem conditionTrue_complete (c : Cond) (s : State) (npc : Word) :
    conditionTrue c (s.complete npc).psr = conditionTrue c s.psr := by
  obtain ⟨rm, lm, h⟩ := complete_psr s npc
  rw [h]
  cases c <;> rfl

theorem exec_cmpReg_plain {s : State} {rd rs : Reg} (hfree : s.Free (.cmpReg rd rs)) (himm : s.ext.imm = []) :
    exec (.cmpReg rd rs) s =
      .next (({ s with psr := subFlags s.psr (s.reg rd) (s.reg rs) false } : State).complete (s.pc + 2)) := by
  have hsources : s.sourcesImm rd rs = (s.reg rd, s.reg rs) := by
    rw [State.sourcesImm, Ext.zero13, himm]
  have hexec : exec (.cmpReg rd rs) s = s.compare (s.sourcesImm rd rs).1 (s.sourcesImm rd rs).2 := by
    apply exec_of_issue (hfree := hfree) <;> rfl
  rw [hexec, hsources, compare_done]

/-- Settles O29. -/
theorem conditionsAfterCompare : Obligations.ConditionsAfterCompare := by
  refine ⟨fun s c d j hfree => ?_, fun s t rd rs c hfree himm hexec => ?_⟩
  · rw [← branch_eq_branched, conditionTrue_eq]
    cases c <;> (apply exec_of_issue (hfree := hfree) <;> rfl)
  · rw [exec_cmpReg_plain hfree himm] at hexec
    cases hexec
    have hcond := conditionTrue_subFlags c s.psr (s.reg rd) (s.reg rs)
    refine ⟨by rw [conditionTrue_complete]; exact hcond, ?_⟩
    rintro i u - hcontrol hbranch hprefix rfl
    rw [skips_eq (c := c) rfl, hcontrol, hbranch, hprefix]
    change conditionTrue c (State.complete _ _).psr = true ↔ _
    rw [conditionTrue_complete]
    exact hcond

end Sys2Proof.Machine
end

section
/-! Proofs about shifts, scan, the coprocessor, loop and repeat (45_shift.md, 49_misc.md, 51_system_coproc.md,
50_loop_repeat.md). -/

namespace Sys2Proof.Machine
open Sys2Proof.Spec

/-! ## Shifts and rotates (45_shift.md R331 to R335) -/

section Pair

variable (x : Word) {n : Nat}

theorem right_high : ((x ++ 0#32 : BitVec 64) >>> n).extractLsb' 32 32 = x >>> n :=
  BitVec.eq_of_getLsbD_eq fun k hk => by
    simp only [BitVec.getLsbD_extractLsb', BitVec.getLsbD_ushiftRight, BitVec.getLsbD_append, hk, decide_true,
      Bool.true_and]
    rw [if_neg (by omega), show n + (32 + k) - 32 = n + k by omega]

theorem right_low (hn : n < 32) :
    ((x ++ 0#32 : BitVec 64) >>> n).extractLsb' 0 32 = if n = 0 then 0 else x <<< (32 - n) :=
  BitVec.eq_of_getLsbD_eq fun k hk => by
    simp only [BitVec.getLsbD_extractLsb', BitVec.getLsbD_ushiftRight, BitVec.getLsbD_append, hk, decide_true,
      Bool.true_and, Nat.zero_add]
    by_cases h0 : n = 0
    · rw [if_pos (by omega), if_pos h0]; simp
    · rw [if_neg h0, BitVec.getLsbD_shiftLeft, decide_eq_true hk, Bool.true_and]
      by_cases hlow : n + k < 32
      · rw [if_pos hlow, decide_eq_true (by omega)]; simp
      · rw [if_neg hlow, decide_eq_false (by omega), show k - (32 - n) = n + k - 32 by omega]; simp

theorem left_low : ((0#32 ++ x : BitVec 64) <<< n).extractLsb' 0 32 = x <<< n :=
  BitVec.eq_of_getLsbD_eq fun k hk => by
    simp only [BitVec.getLsbD_extractLsb', BitVec.getLsbD_shiftLeft, BitVec.getLsbD_append, hk, decide_true,
      Bool.true_and, Nat.zero_add]
    rw [decide_eq_true (by omega), if_pos (by omega), Bool.true_and]

theorem left_high (hn : n < 32) :
    ((0#32 ++ x : BitVec 64) <<< n).extractLsb' 32 32 = if n = 0 then 0 else x >>> (32 - n) :=
  BitVec.eq_of_getLsbD_eq fun k hk => by
    simp only [BitVec.getLsbD_extractLsb', BitVec.getLsbD_shiftLeft, BitVec.getLsbD_append, hk, decide_true,
      Bool.true_and]
    rw [decide_eq_true (by omega), decide_eq_false (by omega)]
    by_cases h0 : n = 0
    · rw [if_pos h0, if_neg (by omega)]; simp
    · rw [if_neg h0, BitVec.getLsbD_ushiftRight]
      by_cases hlow : 32 + k - n < 32
      · rw [if_pos hlow, show 32 - n + k = 32 + k - n by omega]; simp
      · rw [if_neg hlow, BitVec.getLsbD_of_ge _ (32 - n + k) (by omega)]; simp

theorem rotateRight_eq (hn : n < 32) : x.rotateRight n = if n = 0 then x else (x >>> n) ||| (x <<< (32 - n)) := by
  rw [BitVec.rotateRight_eq_rotateRightAux_of_lt hn, BitVec.rotateRightAux]
  split
  · next h => subst h; simp
  · rfl

theorem rotateLeft_eq (hn : n < 32) : x.rotateLeft n = if n = 0 then x else (x <<< n) ||| (x >>> (32 - n)) := by
  rw [BitVec.rotateLeft_eq_rotateLeftAux_of_lt hn, BitVec.rotateLeftAux]
  split
  · next h => subst h; simp [BitVec.ushiftRight_eq_zero]
  · rfl

theorem sshiftRight_eq_div : x.sshiftRight n = BitVec.ofInt 32 (x.toInt / 2 ^ n) := by
  rw [BitVec.sshiftRight_eq, Int.shiftRight_eq_div_pow]
  norm_cast

/-- One 64-bit shift gives the result and SOR of every operation. -/
theorem shiftPair_eq (op : Shift) (hn : n < 32) : shiftPair op x n = (shiftValue op x n, shiftOutWord op x n) := by
  cases op <;>
    simp only [shiftPair, shiftValue, shiftOutWord, goesRight, right_high, right_low x hn, left_low, left_high x hn,
      rotateRight_eq x hn, rotateLeft_eq x hn, sshiftRight_eq_div, if_true, if_false, Bool.false_eq_true]

/-- The bit last shifted out is the end of SOR next to the register. -/
theorem lastOut_eq (op : Shift) (hn : n < 32) : lastOut op (shiftOutWord op x n) = shiftedOut op x n := by
  unfold shiftOutWord shiftedOut
  by_cases h0 : n = 0
  · rw [if_pos h0, if_pos h0]; cases op <;> rfl
  · rw [if_neg h0, if_neg h0]
    have hleft : (x <<< (32 - n)).getLsbD 31 = x.getLsbD (n - 1) := by
      rw [BitVec.getLsbD_shiftLeft, decide_eq_true (by decide), decide_eq_false (by omega),
        show 31 - (32 - n) = n - 1 by omega]
      rfl
    have hright : (x >>> (32 - n)).getLsbD 0 = x.getLsbD (32 - n) := BitVec.getLsbD_ushiftRight ..
    cases op
    case srl | sra | rr => exact hleft
    case sll | sla | rl => exact hright

end Pair

theorem afterShift_done (s : State) (op : Shift) (rd : Reg) {n : Nat} (hn : n < 32) :
    s.shiftBy op rd n = .next ((afterShift s op rd (s.shiftSource rd) n).complete (s.pc + 2)) := by
  unfold afterShift
  rw [shiftPair_eq _ op hn]
  dsimp only
  rw [lastOut_eq _ op hn, ← BitVec.msb_eq_getLsbD_last]
  rfl

/-- Settles O31. -/
theorem shiftsAndRotates : Obligations.ShiftsAndRotates := fun s rd rs n => by
  have hcount : (s.reg rs).toNat % 32 < 32 := Nat.mod_lt _ (by decide)
  have himm : n.toNat < 32 := n.isLt
  refine ⟨?_, ?_, ?_, ?_, ?_, ?_, ?_, ?_, ?_, ?_, ?_, ?_, ?_, ?_, ?_, ?_, ?_, ?_⟩ <;> (apply runsTo_of_issue; rfl)
  iterate 6 exact afterShift_done s _ rd hcount
  iterate 12 exact afterShift_done s _ rd himm

/-! ## Scan (49_misc.md R441) -/

theorem scanFrom_eq (t : Bool) (x : Word) : ∀ left i,
    scanFrom t x i left = (((List.range' i left).find? fun k => x.getLsbD (31 - k) == t).map (· - i)).getD left
  | 0, i => rfl
  | left + 1, i => by
    have ih := scanFrom_eq t x left (i + 1)
    rw [scanFrom, List.range'_succ, List.find?_cons]
    cases hbit : x.getLsbD (31 - i) == t
    · rw [if_neg (by decide), ih]
      cases hfind : (List.range' (i + 1) left).find? fun k => x.getLsbD (31 - k) == t with
      | none => rfl
      | some k =>
        have hk := (List.mem_range'_1.mp (List.mem_of_find?_eq_some hfind)).1
        simp only [Option.map_some, Option.getD_some]
        omega
    · simp

theorem scanPosition_eq (t : Bool) (x : Word) (width : Nat) : scanPosition t x width = scan t x width := by
  rw [scan, scanFrom_eq, scanPosition, List.range_eq_range']
  simp

/-- Settles O45. -/
theorem scanPositions : Obligations.ScanPositions := fun s rd rs t => by
  simp only [scanPosition_eq]
  cases t
  · apply runsTo_of_issue (i := .scan0 rd rs) <;> rfl
  · apply runsTo_of_issue (i := .scan1 rd rs) <;> rfl

/-! ## Loop and repeat (50_loop_repeat.md R461 to R474) -/

theorem four_bits_times_two (n : BitVec 4) : n.setWidth 32 * 2 = BitVec.ofNat 32 (2 * n.toNat) := by
  apply BitVec.eq_of_toNat_eq
  rw [BitVec.toNat_mul, toNat_setWidth_word n (by decide), BitVec.toNat_ofNat, show (2 : Word).toNat = 2 from rfl]
  omega

theorem four_bits (n : BitVec 4) : n.setWidth 32 = BitVec.ofNat 32 n.toNat := by
  apply BitVec.eq_of_toNat_eq
  rw [BitVec.toNat_setWidth, BitVec.toNat_ofNat]

/-- A loop of more than one instruction begins; a loop of one stops. -/
theorem loop_begins {i : Instr} {s : State} {last count : Word} {effect : State → Result}
    (hexec : exec i s = s.issue i effect) (heffect : effect s = s.beginLoop last count) :
    (even last ≠ s.pc + 2 →
      RunsTo i s { s with lsa := s.pc + 2, lea := last, lco := count, psr := { s.psr with lm := true } }) ∧
    (even last = s.pc + 2 → s.Free i → exec i s = .fault .singleInstructionLoop) := by
  rw [even_eq]
  exact ⟨fun h => runsTo_of_issue hexec (heffect.trans (if_neg h)), fun h => exec_of_issue hexec (heffect.trans (if_pos h))⟩

/-- Settles O48. -/
theorem loopAndRepeatBegin : Obligations.LoopAndRepeatBegin := fun s rc ra n m => by
  simp only [← four_bits_times_two, ← four_bits]
  refine ⟨loop_begins (by rfl) (by rfl), loop_begins (by rfl) (by rfl), loop_begins (by rfl) (by rfl), ?_, ?_⟩ <;>
    apply runsTo_of_issue <;> rfl

/-! ## The coprocessor (51_system_coproc.md R500 to R504) -/

theorem getLsbD_eq_div (f : BitVec 4) (k : Nat) : f.getLsbD k = decide (f.toNat / 2 ^ k % 2 = 1) := by
  rw [BitVec.getLsbD, Nat.testBit_eq_decide_div_mod_eq]

/-- Settles O51. -/
theorem coprocessor : Obligations.Coprocessor := fun s r n c => by
  refine ⟨?_, ?_, ?_, ?_⟩ <;> (apply runsTo_of_issue; rfl)
  · rfl
  · rfl
  · rfl
  · dsimp only
    rw [getLsbD_eq_div _ 3, getLsbD_eq_div _ 2, getLsbD_eq_div _ 1, getLsbD_eq_div _ 0, Nat.pow_zero, Nat.div_one]
    rfl

end Sys2Proof.Machine
end

section
/-! What every instruction and every step may do to the fixed bits, the parameters, the handler flags and the
supervisor's state: one relation for the effects of an instruction (Works), one for how it may end (Outcome). -/

namespace Sys2Proof.Machine
open Sys2Proof.Spec

/-! ## Effects -/

/-- What the instructions without special rights do: the invariant of a well-kept state, the parameters, ME and DE stay,
and in user mode HE, SV, IL, IE, TTBR and SSP stay (10_state.md R29, R48). -/
structure Works (s t : State) : Prop where
  kept : s.WellKept → t.WellKept
  params : t.params = s.params
  me : t.psr.me = s.psr.me
  de : t.psr.de = s.psr.de
  user : s.psr.sv = true → s.psr.me = false →
    t.psr.sv = true ∧ t.psr.he = s.psr.he ∧ t.psr.il = s.psr.il ∧ t.psr.ie = s.psr.ie ∧ t.ttbr = s.ttbr ∧ t.ssp = s.ssp

theorem Works.trans {s t u : State} (h : Works s t) (k : Works t u) : Works s u where
  kept hs := k.kept (h.kept hs)
  params := k.params.trans h.params
  me := k.me.trans h.me
  de := k.de.trans h.de
  user hsv hme := by
    obtain ⟨sv, he, il, ie, ttbr, ssp⟩ := h.user hsv hme
    obtain ⟨sv', he', il', ie', ttbr', ssp'⟩ := k.user sv (h.me.trans hme)
    exact ⟨sv', he'.trans he, il'.trans il, ie'.trans ie, ttbr'.trans ttbr, ssp'.trans ssp⟩

/-- The parts of the state that Works speaks of, but for the memory. -/
def State.anchor (s : State) :=
  (s.pc, s.ssp, s.usp, s.dp, s.ttbr, s.delay, s.ext.imm, s.params,
    s.psr.me, s.psr.de, s.psr.sv, s.psr.he, s.psr.il, s.psr.ie)

/-- A change of anything else is an effect. -/
theorem works_of_anchor {s t : State} (h : t.anchor = s.anchor) (hmem : Memory.wf s.mem = true → Memory.wf t.mem = true) :
    Works s t := by
  simp only [State.anchor, Prod.mk.injEq] at h
  obtain ⟨pc, ssp, usp, dp, ttbr, delay, imm, params, me, de, sv, he, il, ie⟩ := h
  refine ⟨fun k => ?_, params, me, de, fun hsv _ => ⟨sv.trans hsv, he, il, ie, ttbr, ssp⟩⟩
  exact ⟨pc ▸ k.pc, ssp ▸ k.ssp, usp ▸ k.usp, dp ▸ k.dp, ttbr ▸ k.ttbr, delay ▸ k.delay, imm ▸ k.imm, hmem k.mem⟩

theorem Works.rfl {s : State} : Works s s := works_of_anchor (by rfl) id

/-- An effect that also leaves the memory alone. -/
theorem works_of_frame {s t : State} (h : t.anchor = s.anchor) (hmem : t.mem = s.mem) : Works s t :=
  works_of_anchor h fun k => hmem ▸ k

theorem works_setReg (s : State) (r : Reg) (v : Word) : Works s (s.setReg r v) := works_of_frame (by rfl) (by rfl)

theorem works_writeAlr (s : State) (v : Word) : Works s (s.writeAlr v) := by
  unfold State.writeAlr
  dsimp only
  split <;> exact works_of_frame (by rfl) (by rfl)

theorem works_writeAhr (s : State) (v : Word) : Works s (s.writeAhr v) := by
  unfold State.writeAhr
  dsimp only
  split <;> exact works_of_frame (by rfl) (by rfl)

theorem works_writeAcc (s : State) (v : BitVec 64) : Works s (s.writeAcc v) :=
  (works_writeAhr s _).trans (works_writeAlr _ _)

theorem works_setSp (s : State) (v : Word) : Works s (s.setSp v) := by
  unfold State.setSp
  split
  · exact ⟨fun k => { k with usp := wordAddress_wordAddress v }, by rfl, by rfl, by rfl,
      fun hsv _ => ⟨hsv, by rfl, by rfl, by rfl, by rfl, by rfl⟩⟩
  · next hsv => exact ⟨fun k => { k with ssp := wordAddress_wordAddress v }, by rfl, by rfl, by rfl, fun h => absurd h hsv⟩

/-- A write of PSR keeps ME and DE, and without the rights HE, SV, IL and IE (10_state.md R29). -/
theorem works_writePsr (s : State) (v : Word) : Works s (s.writePsr v) := by
  refine ⟨fun k => { k with }, by rfl, by rfl, by rfl, fun hsv hme => ?_⟩
  have hrights : s.psr.supervisorRights = false := by simp [Psr.supervisorRights, hsv, hme]
  unfold State.writePsr
  rw [hrights]
  exact ⟨hsv, by rfl, by rfl, by rfl, by rfl, by rfl⟩

/-- Writes that need the supervisor's rights are effects, since user mode does not have them (10_state.md R48). -/
theorem works_guarded {s t : State} (h : s.psr.supervisorRights = true → (s.WellKept → t.WellKept) ∧ t.params = s.params ∧
    t.psr = s.psr) : Works s (if s.psr.supervisorRights then t else s) := by
  split
  · next hr =>
    obtain ⟨kept, params, psr⟩ := h hr
    refine ⟨kept, params, by rw [psr], by rw [psr], fun hsv hme => ?_⟩
    simp [Psr.supervisorRights, hsv, hme] at hr
  · exact Works.rfl

theorem works_setSpecial (s : State) (n : SReg) (v : Word) : Works s (s.setSpecial n v) := by
  unfold State.setSpecial
  split
  · exact works_writePsr s v
  · exact works_setSp s v
  iterate 6 exact works_of_frame (by rfl) (by rfl)
  · exact works_guarded fun _ => ⟨fun k => { k with ttbr := tableAddress_tableAddress v }, by rfl, by rfl⟩
  · exact ⟨fun k => { k with dp := wordAddress_wordAddress v }, by rfl, by rfl, by rfl,
      fun hsv _ => ⟨hsv, by rfl, by rfl, by rfl, by rfl, by rfl⟩⟩
  · exact ⟨fun k => { k with usp := wordAddress_wordAddress v }, by rfl, by rfl, by rfl,
      fun hsv _ => ⟨hsv, by rfl, by rfl, by rfl, by rfl, by rfl⟩⟩
  · exact works_guarded fun _ => ⟨fun k => { k with ssp := wordAddress_wordAddress v }, by rfl, by rfl⟩
  · exact Works.rfl

theorem works_physWrite (s : State) (z : Size) (p v : Word) : Works s (s.physWrite z p v) :=
  works_of_anchor (by rfl) (Memory.wf_put _ z p v)

theorem works_store {s t : State} {z : Size} {a v : Word} (h : s.store z a v = .ok t) : Works s t := by
  obtain ⟨p, -, he⟩ | ⟨-, he⟩ := store_cases s z a v <;> rw [he] at h
  · obtain rfl := Except.ok.inj h
    exact works_of_anchor (by rfl) (Memory.wf_put _ z p v)
  · cases h

theorem works_memWrite {s t : State} {z : Size} {a v : Word} (h : s.memWrite z a v = .ok t) : Works s t := by
  cases hz : z.misaligned a
  · exact works_store (memWrite_aligned v hz ▸ h)
  · rw [memWrite_misaligned v hz] at h; cases h

theorem works_pushWord {s t : State} {v : Word} (h : s.pushWord v = .ok t) : Works s t := by
  unfold State.pushWord at h
  split at h
  · cases h
  · next hstore =>
    obtain rfl := Except.ok.inj h
    exact (works_store hstore).trans (works_setSp _ _)

theorem works_popWord {s t : State} {v : Word} (h : s.popWord = .ok (v, t)) : Works s t := by
  unfold State.popWord at h
  split at h
  · cases h
  · obtain ⟨-, rfl⟩ := Prod.mk.inj (Except.ok.inj h)
    exact works_setSp _ _

theorem works_poll (s : State) : Works s s.poll.2 := by
  unfold State.poll
  split <;> exact works_of_frame (by rfl) (by rfl)

theorem works_retire (s : State) : Works s s.retire :=
  ⟨fun k => { k with imm := Nat.zero_le 2 }, by rfl, by rfl, by rfl, fun hsv _ => ⟨hsv, by rfl, by rfl, by rfl, by rfl, by rfl⟩⟩

theorem works_restart (s : State) : Works s s.restart.2 := by
  obtain h | h := restart_state s <;> rw [h]
  · exact Works.rfl
  · exact works_of_frame (by rfl) (by rfl)

theorem works_readPsr (s : State) : Works s s.readPsr.2 := by
  unfold State.readPsr
  split <;> exact works_of_frame (by rfl) (by rfl)

theorem works_readSpecial (s : State) (n : SReg) : Works s (s.readSpecial n).2 := by
  unfold State.readSpecial
  split
  · exact works_readPsr s
  · split <;> exact works_of_frame (by rfl) (by rfl)

theorem works_pushsValue (s : State) (n : SReg) : Works s (s.pushsValue n).2 := by
  unfold State.pushsValue
  split
  · exact works_readSpecial s n
  · exact works_of_frame (by rfl) (by rfl)

theorem works_restoreSpecial (s : State) (n : SReg) (v : Word) : Works s (s.restoreSpecial n v) := by
  unfold State.restoreSpecial
  split
  iterate 9 exact works_setSpecial s _ v
  exact Works.rfl

/-! ## Completing -/

theorem even_add_two {a : Word} (h : evenAddress a = a) : evenAddress (a + 2) = a + 2 := evenAddress_add h (by decide)

theorem wellKept_redirect {s : State} {a npc : Word} (k : s.WellKept) (ha : evenAddress a = a)
    (hn : evenAddress npc = npc) : (s.redirect a npc).WellKept := by
  obtain ⟨-, -, he⟩ | ⟨-, -, -, he⟩ | ⟨-, -, he⟩ := redirect_cases s a npc <;> rw [he]
  · split
    · exact { k with pc := even_add_two ha }
    · exact { k with pc := ha }
  · split
    · exact { k with pc := even_add_two ha }
    · exact { k with pc := evenAddress_evenAddress _ }
  · exact { k with pc := hn }

theorem wellKept_complete {s : State} {npc : Word} (k : s.WellKept) (hn : evenAddress npc = npc) :
    (s.complete npc).WellKept := by
  refine wellKept_redirect { k with imm := Nat.zero_le 2, delay := nofun } k.pc ?_
  cases hd : s.delay with
  | none => exact hn
  | some a => exact k.delay a hd

theorem Works.complete {s u : State} {npc : Word} (w : Works s u) (h : s.WellKept → evenAddress npc = npc) :
    Works s (u.complete npc) where
  kept k := wellKept_complete (w.kept k) (h k)
  params := (complete_params ..).trans w.params
  me := (complete_psr_me ..).trans w.me
  de := (complete_psr_de ..).trans w.de
  user hsv hme := by
    obtain ⟨sv, he, il, ie, ttbr, ssp⟩ := w.user hsv hme
    exact ⟨(complete_psr_sv ..).trans sv, (complete_psr_he ..).trans he, (complete_psr_il ..).trans il,
      (complete_psr_ie ..).trans ie, (complete_ttbr ..).trans ttbr, (complete_ssp ..).trans ssp⟩

theorem works_done (s : State) : Works s (s.complete (s.pc + 2)) := Works.rfl.complete fun k => even_add_two k.pc

theorem Works.completeDelayed {s u : State} {a : Word} (w : Works s u) (h : s.WellKept → evenAddress a = a) :
    Works s (u.completeDelayed a) where
  kept k := { w.kept k with
    pc := even_add_two (w.kept k).pc, imm := Nat.zero_le 2, delay := fun _ hb => Option.some.inj hb ▸ h k }
  params := w.params
  me := w.me
  de := w.de
  user := w.user

end Sys2Proof.Machine
end

section
/-! How an instruction and a step may end, and the statements about every step that follow. -/

namespace Sys2Proof.Machine
open Sys2Proof.Spec

/-! ## Endings -/

/-- The user's program goes on with the supervisor's state untouched; only `reti` moves SSP (10_state.md R29, R48). -/
def StaysUser (i : Instr) (s t : State) : Prop :=
  t.psr.sv = true ∧ t.psr.he = s.psr.he ∧ t.psr.il = s.psr.il ∧ t.psr.ie = s.psr.ie ∧ t.ttbr = s.ttbr ∧
    (t.ssp = s.ssp ∨ (i = .reti ∧ t.ssp = s.ssp + 8))

/-- A trap was entered through the vector table (60_exceptions.md R570). -/
def EntersHandler (s t : State) : Prop :=
  t.psr.sv = false ∧ t.psr.ie = false ∧ t.psr.he = s.psr.he ∧ t.ttbr = s.ttbr ∧ t.ssp = s.ssp - 8 ∧
    ∃ n v, n < 256 ∧ t.load .word (vector t n) = .ok v ∧ t.pc = even v

/-- What the end of an instruction i that started in s and gave t satisfies, whatever the end is. -/
structure Outcome (i : Instr) (s t : State) : Prop where
  kept : s.WellKept → t.WellKept
  params : t.params = s.params
  me : t.run ≠ .reset → s.psr.me = true → t.psr.me = false → i = .retm
  de : t.run ≠ .reset → s.psr.de = true → t.psr.de = false → i = .retd
  user : s.psr.sv = true → s.psr.me = false → StaysUser i s t ∨ EntersHandler s t ∨ t.run = .reset

/-- Every next state a result gives is such an end. -/
def Outcomes (i : Instr) (s : State) (r : Result) : Prop := ∀ t, r = .next t → Outcome i s t

theorem Works.outcome {s t : State} (h : Works s t) (i : Instr) : Outcome i s t where
  kept := h.kept
  params := h.params
  me _ hs ht := absurd (h.me.trans hs) (Bool.eq_false_iff.mp ht)
  de _ hs ht := absurd (h.de.trans hs) (Bool.eq_false_iff.mp ht)
  user hsv hme := by
    obtain ⟨sv, he, il, ie, ttbr, ssp⟩ := h.user hsv hme
    exact .inl ⟨sv, he, il, ie, ttbr, .inl ssp⟩

/-- An effect before the end. -/
theorem Works.then {i : Instr} {s u t : State} (h : Works s u) (k : Outcome i u t) : Outcome i s t where
  kept hs := k.kept (h.kept hs)
  params := k.params.trans h.params
  me hrun hs := k.me hrun (h.me.trans hs)
  de hrun hs := k.de hrun (h.de.trans hs)
  user hsv hme := by
    obtain ⟨sv, he, il, ie, ttbr, ssp⟩ := h.user hsv hme
    obtain ⟨sv', he', il', ie', ttbr', ssp'⟩ | ⟨sv', ie', he', ttbr', ssp', hpc⟩ | hrun := k.user sv (h.me.trans hme)
    · exact .inl ⟨sv', he'.trans he, il'.trans il, ie'.trans ie, ttbr'.trans ttbr, ssp ▸ ssp'⟩
    · exact .inr (.inl ⟨sv', ie', he'.trans he, ttbr'.trans ttbr, ssp ▸ ssp', hpc⟩)
    · exact .inr (.inr hrun)

section

variable {i : Instr} {s u : State} {r : Result}

theorem Works.outcomes (h : Works s u) (k : Outcomes i u r) : Outcomes i s r := fun _ ht => h.then (k _ ht)

theorem outcomes_fault (f : Fault) : Outcomes i s (.fault f) := fun _ ht => by cases ht

theorem outcomes_next (h : Works s u) : Outcomes i s (.next u) := fun _ ht => Host.Outcome.next.inj ht ▸ h.outcome i

/-- An effect, and completing at the next code. -/
theorem Works.done (h : Works s u) : Outcomes i s u.done := outcomes_next (h.trans (works_done u))

theorem outcomes_issue {effect : State → Result} (j : Instr) (h : Outcomes i s (effect s)) :
    Outcomes i s (s.issue j effect) := fun t ht => by
  obtain ⟨-, -, rfl⟩ | ⟨-, ht⟩ := issue_next ht
  · exact (works_done s).outcome i
  · exact h t ht

/-- A branch after an effect. -/
theorem Works.branch (w : Works s u) (d taken : Bool) {target : Word} (h : s.WellKept → evenAddress target = target) :
    Outcomes i s (u.branch d taken target) := by
  rw [branch_eq]
  apply outcomes_next
  split
  · refine w.completeDelayed fun k => ?_
    split
    · exact h k
    · exact evenAddress_add (w.kept k).pc (by decide)
  · split
    · exact (w.trans (works_of_frame (by rfl) (by rfl) : Works u u.discardPrefetch)).complete h
    · exact w.trans (works_done u)

/-! ## Exceptions -/

theorem wf_physWrite {s : State} (z : Size) (p v : Word) (h : Memory.wf s.mem = true) : Memory.wf (s.physWrite z p v).mem = true :=
  Memory.wf_put _ z p v h

theorem outcomes_mmuException (ret : Word) : Outcomes i s (s.mmuException ret) := fun t ht => by
  obtain ⟨hde, rfl⟩ := mmuException_next ht
  exact
    { kept := fun k => { k with
        pc := evenAddress_evenAddress _, delay := nofun, imm := Nat.zero_le 2
        mem := wf_physWrite .word _ _ (wf_physWrite .word _ _ k.mem) }
      params := by rfl
      me := fun _ _ h => by cases h
      de := fun _ h => absurd h (Bool.eq_false_iff.mp hde)
      user := fun hsv _ => .inl ⟨hsv, by rfl, by rfl, by rfl, by rfl, .inl (by rfl)⟩ }

theorem outcome_debugException (ret : Word) : Outcome i s (s.debugException ret) where
  kept k := { k with
    pc := evenAddress_evenAddress _, delay := nofun, imm := Nat.zero_le 2
    mem := wf_physWrite .word _ _ (wf_physWrite .word _ _ k.mem) }
  params := by rfl
  me _ hs ht := absurd hs (Bool.eq_false_iff.mp ht)
  de _ _ h := by cases h
  user hsv _ := .inl ⟨hsv, by rfl, by rfl, by rfl, by rfl, .inl (by rfl)⟩

theorem beginReset_run (s : State) (kind : ResetKind) : (s.beginReset kind).run = .reset := rfl

/-- A reset forgets everything the relation compares but the parameters. -/
theorem outcome_beginReset (kind : ResetKind) : Outcome i s (s.beginReset kind) where
  kept k := {
    pc := k.pc, ssp := wordAddress_wordAddress _, usp := wordAddress_wordAddress _, dp := wordAddress_wordAddress _
    ttbr := by
      cases kind <;> dsimp only [State.beginReset]
      · decide
      · exact k.ttbr
    delay := nofun, imm := (Nat.zero_le 2 : Ext.empty.imm.length ≤ 2), mem := k.mem }
  params := rfl
  me h := absurd (beginReset_run s kind) h
  de h := absurd (beginReset_run s kind) h
  user _ _ := by right; right; exact beginReset_run s kind

theorem outcomes_trap (n : BitVec 8) (level : Option (BitVec 4)) (nmi : Bool) (ret restart : Word) :
    Outcomes i s (s.trap n level nmi ret restart) := fun t ht => by
  obtain ⟨p1, p2, p3, -, -, h3, rfl⟩ | ⟨m, hm, ht⟩ := trap_next ht
  · exact
      { kept := fun k => { k with
          pc := evenAddress_evenAddress _, ssp := wordAddress_sub k.ssp (by decide), delay := nofun, imm := Nat.zero_le 2
          mem := wf_physWrite .word _ _ (wf_physWrite .word _ _ k.mem) }
        params := by rfl
        me := fun _ hs hf => absurd hs (Bool.eq_false_iff.mp hf)
        de := fun _ hs hf => absurd hs (Bool.eq_false_iff.mp hf)
        user := fun _ _ => .inr (.inl ⟨by rfl, by rfl, by rfl, by rfl, by rfl, n.toNat, _, n.isLt,
          load_eq .word (p := p3) (by rw [← vectorAddress_eq]; exact h3), (even_eq _).symm⟩) }
  · have hworks : Works s { s with mem := m } := works_of_anchor (by rfl) fun hwf => by
      obtain rfl | ⟨p, rfl⟩ | ⟨p, q, rfl⟩ := hm
      · exact hwf
      · exact wf_physWrite .word _ _ hwf
      · exact wf_physWrite .word _ _ (wf_physWrite .word _ _ hwf)
    exact hworks.then (outcomes_mmuException restart t ht)

theorem outcomes_raise (c : Cause) (n : BitVec 8) (ret restart : Word) : Outcomes i s (s.raise c n ret restart) :=
  fun t ht => outcomes_trap n none false ret restart t (raise_next ht).2.2

theorem outcomes_abort (e : Abort) : Outcomes i s (s.abort e) := fun t ht => by
  obtain ⟨-, -, -, ht⟩ | ⟨-, ht⟩ := abort_next ht
  · exact (works_restart s).then (outcomes_trap _ _ _ _ _ t ht)
  · exact (works_restart s).then (outcomes_mmuException _ t ht)

theorem outcomes_orAbort {α : Type} {x : Except Abort α} {k : α → Result} (hw : Works s u)
    (h : ∀ a, x = .ok a → Outcomes i s (k a)) : Outcomes i s (u.orAbort x k) := by
  cases hx : x with
  | ok a => exact h a hx
  | error e => exact hw.outcomes (outcomes_abort e)

theorem outcomes_interrupt {input : HostInput} {ret : Word} (h : s.interrupt input ret = some r) : Outcomes i s r := by
  obtain ⟨-, -, ⟨-, -, -, rfl⟩ | ⟨q, -, -, rfl⟩⟩ := interrupt_some h
  · exact outcomes_trap _ _ _ _ _
  · exact outcomes_trap _ _ _ _ _

theorem outcomes_accept {input : HostInput} {ret : Word} (h : s.accept input ret = some r) : Outcomes i s r := by
  obtain ⟨-, -, ⟨-, -, -, rfl⟩ | h⟩ := accept_some h
  · exact fun t ht => Host.Outcome.next.inj ht ▸ outcome_debugException ret
  · exact outcomes_interrupt h

theorem outcomes_innerBoundary {mark : State → State} {k : State → Result} (hmark : ∀ t, Works t (mark t))
    (h : ∀ t, Outcomes i t (k t)) : Outcomes i s (s.innerBoundary mark k) := fun t ht => by
  obtain ⟨kind, rfl⟩ | ⟨r, hr, rfl⟩ | ht := innerBoundary_next ht
  · exact (works_poll s).then (outcome_beginReset kind)
  · exact ((works_poll s).trans (hmark _)).then (outcomes_accept hr t (by rfl))
  · exact (works_poll s).then (h _ t ht)

end

end Sys2Proof.Machine
end

section
/-! The end of every instruction and of every step; the statements about every step that follow. -/

namespace Sys2Proof.Machine
open Sys2Proof.Spec

/-! ## The shared operations -/

section

variable {i : Instr} {s u : State} {r : Result}

theorem outcomes_of_issue {effect : State → Result} (hexec : exec i s = s.issue i effect) (h : Outcomes i s (effect s)) :
    Outcomes i s (exec i s) := hexec ▸ outcomes_issue i h

theorem outcomes_done : Outcomes i s s.done := Works.rfl.done

/-- Registers, arithmetic flags and the like change, and the instruction completes. -/
theorem outcomes_frame (h : u.anchor = s.anchor) (hmem : u.mem = s.mem) : Outcomes i s u.done :=
  (works_of_frame h hmem).done

theorem outcomes_powerDown (mode : RunState) : Outcomes i s (s.powerDown mode) := by
  unfold State.powerDown
  split
  · exact outcomes_next ((works_done s).trans (works_of_frame (by rfl) (by rfl)))
  · exact outcomes_done

theorem outcomes_record {e : Option Ext} (h : ∀ x, e = some x → s.ext.imm.length ≤ 2 → x.imm.length ≤ 2) :
    Outcomes i s (s.takePrefixRecord e) := by
  unfold State.takePrefixRecord
  split
  · next x =>
    exact outcomes_next ⟨fun k => { k with pc := even_add_two k.pc, imm := h x (by rfl) k.imm }, by rfl, by rfl, by rfl,
      fun hsv _ => ⟨hsv, by rfl, by rfl, by rfl, by rfl, by rfl⟩⟩
  · exact outcomes_fault _

theorem outcomes_addImm (a : Word) (n : BitVec 13) : Outcomes i s (s.takePrefixRecord (s.ext.addImm a n)) :=
  outcomes_record fun x hx _ => by
    unfold Ext.addImm at hx
    dsimp only at hx
    split at hx
    · obtain rfl := Option.some.inj hx
      dsimp only
      split <;> rw [List.length_cons] <;> simp
    · cases hx

/-- A record that takes a register, a shift or a condition keeps its immediates. -/
theorem outcomes_record_if {c : Prop} [Decidable c] {x : Ext} (h : x.imm = s.ext.imm) :
    Outcomes i s (s.takePrefixRecord (if c then some x else none)) :=
  outcomes_record fun y hy himm => by
    split at hy
    · obtain rfl := Option.some.inj hy; exact h ▸ himm
    · cases hy

theorem outcomes_loadIndirect (z : Size) (signed : Bool) (rd rb : Reg) : Outcomes i s (s.loadIndirect z signed rd rb) :=
  outcomes_orAbort Works.rfl fun _ _ => (works_setReg ..).done

theorem outcomes_loadIncrement (z : Size) (signed : Bool) (rd rb : Reg) : Outcomes i s (s.loadIncrement z signed rd rb) :=
  outcomes_orAbort Works.rfl fun _ _ => ((works_setReg ..).trans (works_setReg ..)).done

theorem outcomes_loadBase (z : Size) (signed : Bool) (base : Word) (rd : Reg) (n : BitVec 6) :
    Outcomes i s (s.loadBase z signed base rd n) :=
  outcomes_orAbort Works.rfl fun _ _ => (works_setReg ..).done

theorem outcomes_storeIndirect (z : Size) (rb rs : Reg) : Outcomes i s (s.storeIndirect z rb rs) :=
  outcomes_orAbort Works.rfl fun _ h => (works_memWrite h).done

theorem outcomes_storeIncrement (z : Size) (rb rs : Reg) : Outcomes i s (s.storeIncrement z rb rs) :=
  outcomes_orAbort Works.rfl fun _ h => ((works_memWrite h).trans (works_setReg ..)).done

theorem outcomes_storeBase (z : Size) (base : Word) (n : BitVec 6) (rs : Reg) : Outcomes i s (s.storeBase z base n rs) :=
  outcomes_orAbort Works.rfl fun _ h => (works_store h).done

theorem outcomes_rewriteByte (rb : Reg) (f : Word → Word) : Outcomes i s (s.rewriteByte rb f) :=
  outcomes_orAbort Works.rfl fun _ _ => outcomes_orAbort Works.rfl fun _ h => (works_store h).done

theorem outcomes_shiftBy (op : Shift) (rd : Reg) (n : Nat) : Outcomes i s (s.shiftBy op rd n) :=
  outcomes_frame (by rfl) (by rfl)

theorem outcomes_saturate (rd : Reg) (v : Word) (limit : Option Word) : Outcomes i s (s.saturate rd v limit) := by
  unfold State.saturate
  split
  · exact outcomes_frame (by rfl) (by rfl)
  · exact (works_setReg ..).done

/-- The flags besides the handler's and the supervisor's may change too. -/
theorem Works.withPsr {p : Psr} (w : Works s u) (me : p.me = s.psr.me) (de : p.de = s.psr.de) (sv : p.sv = s.psr.sv)
    (he : p.he = s.psr.he) (il : p.il = s.psr.il) (ie : p.ie = s.psr.ie) : Works s { u with psr := p } where
  kept k := { w.kept k with }
  params := w.params
  me := me
  de := de
  user hsv hme := by
    obtain ⟨-, -, -, -, ttbr, ssp⟩ := w.user hsv hme
    exact ⟨sv.trans hsv, he, il, ie, ttbr, ssp⟩

theorem works_macStep (s : State) (x y : Int) : Works s (s.macStep x y) :=
  (works_writeAcc s _).trans (works_of_frame (by rfl) (by rfl))

theorem outcomes_zeroDivide : Outcomes i s s.zeroDivide :=
  ((works_restart s).trans (works_retire _)).outcomes (outcomes_raise _ _ _ _)

theorem outcomes_endDivision0 (d : Word) : Outcomes i s (s.endDivision0 d) := by
  unfold State.endDivision0
  dsimp only
  split
  · exact Works.outcomes (works_of_frame (by rfl) (by rfl)) outcomes_zeroDivide
  · exact outcomes_frame (by rfl) (by rfl)

theorem outcomes_beginLoop (last count : Word) : Outcomes i s (s.beginLoop last count) := by
  unfold State.beginLoop
  split
  · exact outcomes_fault _
  · exact outcomes_frame (by rfl) (by rfl)

theorem outcomes_call (d : Bool) {target : Word} (h : s.WellKept → evenAddress target = target) :
    Outcomes i s (s.call d target) :=
  outcomes_orAbort Works.rfl fun _ ht => (works_pushWord ht).branch d true h

/-! ## Sequences -/

theorem works_setPm (s : State) (b : Bool) : Works s (s.setPm b) := works_of_frame (by rfl) (by rfl)

theorem works_markRc (n : Reg) (s : State) : Works s (State.markRc n s) := works_of_frame (by rfl) (by rfl)

theorem outcomes_endSequence : Outcomes i s s.endSequence := (works_setPm s false).done

theorem outcomes_pushOf (n : Reg) (v : Word) {k : State → Result} (h : ∀ t, Outcomes i t (k t)) :
    Outcomes i s (s.pushOf n v k) :=
  outcomes_orAbort (works_markRc n s) fun t ht => (works_pushWord ht).outcomes (h t)

theorem outcomes_popOf (n : Reg) {k : Word → State → Result} (h : ∀ v t, Outcomes i t (k v t)) :
    Outcomes i s (s.popOf n k) :=
  outcomes_orAbort (works_markRc n s) fun vt ht => (works_popWord ht).outcomes (h vt.1 vt.2)

theorem outcomes_pushDown : ∀ (n : Nat) (s : State), Outcomes i s (pushDown n s)
  | 0, _ => outcomes_pushOf _ _ fun _ => outcomes_endSequence
  | n + 1, _ => outcomes_pushOf _ _ fun _ => outcomes_innerBoundary (works_markRc _) (outcomes_pushDown n)

theorem outcomes_popUp : ∀ (left : Nat) (n : Reg) (s : State), Outcomes i s (popUp left n s)
  | 0, _, _ => outcomes_popOf _ fun _ _ => (works_setReg ..).outcomes outcomes_endSequence
  | left + 1, n, _ => outcomes_popOf _ fun _ _ => (works_setReg ..).outcomes
      (outcomes_innerBoundary (works_markRc _) (outcomes_popUp left (n + 1)))

theorem outcomes_pushsDown : ∀ (n : Nat) (s : State), Outcomes i s (pushsDown n s)
  | 0, s => (works_pushsValue s 2).outcomes (outcomes_pushOf _ _ fun _ => outcomes_endSequence)
  | n + 1, s => (works_pushsValue s (BitVec.ofNat 4 (n + 3))).outcomes
      (outcomes_pushOf _ _ fun _ => outcomes_innerBoundary (works_markRc _) (outcomes_pushsDown n))

theorem outcomes_popsUp : ∀ (left : Nat) (n : SReg) (s : State), Outcomes i s (popsUp left n s)
  | 0, _, _ => outcomes_popOf _ fun _ _ => (works_restoreSpecial ..).outcomes outcomes_endSequence
  | left + 1, n, _ => outcomes_popOf _ fun _ _ => (works_restoreSpecial ..).outcomes
      (outcomes_innerBoundary (works_markRc _) (outcomes_popsUp left (n + 1)))

theorem works_loseOverlap (s : State) (rs : Reg) : Works s (s.loseOverlap rs) := by
  unfold State.loseOverlap
  dsimp only
  split <;> split <;> exact works_of_frame (by rfl) (by rfl)

theorem works_macPass {s t : State} {rs : Reg} {z1 z2 : Size} (h : s.macPass rs z1 z2 = .ok t) : Works s t := by
  unfold State.macPass at h
  split at h
  · cases h
  · split at h
    · cases h
    · obtain rfl := Except.ok.inj h
      exact ((((works_macStep ..).trans (works_setReg ..)).trans (works_setReg ..)).trans (works_setReg ..)).trans
        (works_loseOverlap ..)

theorem outcomes_macLoop (rs : Reg) (z1 z2 : Size) : ∀ (fuel : Nat) (s : State), Outcomes i s (macLoop rs z1 z2 fuel s)
  | 0, s => by
    unfold macLoop
    split
    · exact outcomes_done
    · exact outcomes_next Works.rfl
  | fuel + 1, s => by
    unfold macLoop
    split
    · exact outcomes_done
    · refine outcomes_orAbort Works.rfl fun t ht => (works_macPass ht).outcomes ?_
      split
      · exact outcomes_done
      · exact outcomes_innerBoundary (fun _ => Works.rfl) (outcomes_macLoop rs z1 z2 fuel)

/-! ## Returns -/

/-- A return changes the state to u and goes on at an even address. -/
theorem outcome_return {npc : Word} (hnpc : evenAddress npc = npc) (kept : s.WellKept → u.WellKept)
    (params : u.params = s.params) (me : s.psr.me = true → u.psr.me = false → i = .retm)
    (de : s.psr.de = true → u.psr.de = false → i = .retd)
    (user : s.psr.sv = true → s.psr.me = false → StaysUser i s u) : Outcome i s (u.complete npc) where
  kept k := wellKept_complete (kept k) hnpc
  params := (complete_params ..).trans params
  me _ hs ht := me hs ((complete_psr_me ..).symm.trans ht)
  de _ hs ht := de hs ((complete_psr_de ..).symm.trans ht)
  user hsv hme := by
    obtain ⟨sv, he, il, ie, ttbr, ssp⟩ := user hsv hme
    exact .inl ⟨(complete_psr_sv ..).trans sv, (complete_psr_he ..).trans he, (complete_psr_il ..).trans il,
      (complete_psr_ie ..).trans ie, (complete_ttbr ..).trans ttbr, by rwa [complete_ssp]⟩

theorem outcomes_reti : Outcomes .reti s (s.orAbort s.returnFromTrap fun ta => .next (ta.1.complete ta.2)) := by
  refine outcomes_orAbort Works.rfl fun ⟨u, a⟩ hu t ht => ?_
  obtain rfl := Host.Outcome.next.inj ht
  unfold State.returnFromTrap at hu
  split at hu
  · cases hu
  · split at hu
    · cases hu
    · next w _ =>
      obtain ⟨rfl, rfl⟩ := Prod.mk.inj (Except.ok.inj hu)
      have hw := works_writePsr s w
      refine outcome_return (evenAddress_evenAddress _) (fun k => { hw.kept k with ssp := ?_ }) (by rfl) ?_ ?_ ?_
      · exact wordAddress_add k.ssp (by decide)
      · exact fun hs hf => absurd (hw.me.trans hs) (Bool.eq_false_iff.mp hf)
      · exact fun hs hf => absurd (hw.de.trans hs) (Bool.eq_false_iff.mp hf)
      · intro hsv hme
        obtain ⟨sv, he, il, ie, ttbr, -⟩ := hw.user hsv hme
        exact ⟨sv, he, il, ie, ttbr, .inr ⟨by rfl, by rfl⟩⟩

theorem outcomes_retm : Outcomes .retm s (.next (s.returnFromMmu.1.complete s.returnFromMmu.2)) := fun t ht => by
  obtain rfl := Host.Outcome.next.inj ht
  refine outcome_return (evenAddress_evenAddress _) (fun k => { k with }) (by rfl) (fun _ _ => by rfl) ?_ ?_
  · exact fun hs hf => absurd hs (Bool.eq_false_iff.mp hf)
  · exact fun hsv _ => ⟨hsv, by rfl, by rfl, by rfl, by rfl, .inl (by rfl)⟩

theorem outcomes_retd : Outcomes .retd s (.next (s.returnFromDebug.1.complete s.returnFromDebug.2)) := fun t ht => by
  obtain rfl := Host.Outcome.next.inj ht
  refine outcome_return (evenAddress_evenAddress _) (fun k => { k with }) (by rfl) ?_ (fun _ _ => by rfl) ?_
  · exact fun hs hf => absurd hs (Bool.eq_false_iff.mp hf)
  · exact fun hsv _ => ⟨hsv, by rfl, by rfl, by rfl, by rfl, .inl (by rfl)⟩

end

/-! ## Branch targets -/

theorem evenAddress_of_bit {a : Word} (h : a.getLsbD 0 = false) : evenAddress a = a := by
  rw [evenAddress_eq_self_iff]
  rw [BitVec.getLsbD, Nat.testBit_zero, decide_eq_false_iff_not] at h
  omega

theorem evenAddress_append_zero (x : BitVec 31) : evenAddress (x ++ 0#1) = x ++ 0#1 :=
  evenAddress_of_bit (by rw [BitVec.getLsbD_append]; rfl)

theorem evenAddress_signExtend {w : Nat} (x : BitVec w) :
    evenAddress ((x ++ 0#1).signExtend 32) = (x ++ 0#1).signExtend 32 :=
  evenAddress_of_bit (by rw [BitVec.getLsbD_signExtend, if_pos (Nat.succ_pos w), BitVec.getLsbD_append]; rfl)

/-- The displacement of a relative branch is even (48_branch.md R391). -/
theorem evenAddress_sign8 (e : Ext) (n : BitVec 8) : evenAddress (e.sign8 n) = e.sign8 n := by
  unfold Ext.sign8
  split
  · exact evenAddress_signExtend n
  · exact evenAddress_signExtend _
  · exact evenAddress_append_zero _

theorem even_relative {s : State} {n : BitVec 8} (k : s.WellKept) :
    evenAddress (s.pc + s.ext.sign8 n) = s.pc + s.ext.sign8 n := evenAddress_add k.pc (evenAddress_sign8 ..)

/-! ## Every instruction -/

theorem exec_outcomes (i : Instr) (s : State) : Outcomes i s (exec i s) := by
  cases i <;> (apply outcomes_of_issue; rfl)
  case nop => exact outcomes_done
  case slp | halt => exact outcomes_powerDown _
  case pushn => exact (works_setPm s true).outcomes (outcomes_pushDown _ _)
  case popn => exact (works_setPm s true).outcomes (outcomes_popUp _ _ _)
  case pushs ss =>
    dsimp only
    generalize (if s.psr.pm then s.psr.rc else ss) = n
    generalize (if n = 0#4 ∨ n = 1#4 then n else 2#4) = hazard
    split
    · exact outcomes_fault _
    · split
      · exact (works_readSpecial s _).outcomes
          (outcomes_orAbort Works.rfl fun _ h => (works_pushWord h).outcomes outcomes_endSequence)
      · exact (works_setPm s true).outcomes (outcomes_pushsDown _ _)
  case pops sd =>
    dsimp only
    split
    · exact outcomes_fault _
    · split
      · exact outcomes_orAbort Works.rfl fun _ h =>
          ((works_popWord h).trans (works_restoreSpecial ..)).outcomes outcomes_endSequence
      · exact (works_setPm s true).outcomes (outcomes_popsUp _ _ _)
  case push => exact outcomes_orAbort Works.rfl fun _ h => (works_pushWord h).done
  case pop => exact outcomes_orAbort Works.rfl fun _ h => ((works_popWord h).trans (works_setReg ..)).done
  case jrgt | jrge | jrlt | jrle | jrugt | jruge | jrult | jrule | jreq | jrne | jpRel =>
    exact Works.rfl.branch _ _ even_relative
  case jpr => exact Works.rfl.branch _ _ fun k => evenAddress_add k.pc (evenAddress_evenAddress _)
  case jpReg => exact Works.rfl.branch _ _ fun _ => evenAddress_evenAddress _
  case callRel => exact outcomes_call _ even_relative
  case callReg => exact outcomes_call _ fun _ => evenAddress_evenAddress _
  case ret =>
    exact outcomes_orAbort Works.rfl fun _ h => (works_popWord h).branch _ _ fun _ => evenAddress_evenAddress _
  case brk =>
    split
    · exact outcomes_fault _
    · exact (works_retire s).outcomes fun t ht => Host.Outcome.next.inj ht ▸ outcome_debugException _
  case int => exact ((works_restart s).trans (works_retire _)).outcomes (outcomes_raise _ _ _ _)
  case reti => exact outcomes_reti
  case retm => exact outcomes_retm
  case retd => exact outcomes_retd
  case mac | macHw | macW => exact outcomes_macLoop _ _ _ _ _
  case mac1H | mac1Hw | mac1W => exact (works_macStep ..).done
  case macclr => exact (((works_writeAhr ..).trans (works_writeAlr ..)).trans (works_of_frame (by rfl) (by rfl))).done
  case mltH | mltuH => exact (works_writeAlr ..).done
  case mltHw | mltW | mltuW => exact (works_writeAcc ..).done
  case div0s | div0u =>
    exact Works.outcomes ((works_writeAhr s _).withPsr (by rfl) (by rfl) (by rfl) (by rfl) (by rfl) (by rfl))
      (outcomes_endDivision0 _)
  case div1 => exact ((works_writeAhr ..).trans (works_writeAlr ..)).done
  case div2s rs =>
    dsimp only
    generalize (if s.psr.n then s.ahr - s.reg rs else s.ahr + s.reg rs) = rest
    split
    · exact ((works_writeAhr ..).trans (works_writeAlr ..)).done
    · exact outcomes_done
  case div3s =>
    split
    · exact (works_writeAlr ..).done
    · exact outcomes_done
  case divW | divuW =>
    dsimp only
    split
    · refine (Works.trans ?_ ((works_writeAlr ..).trans (works_writeAhr ..))).outcomes outcomes_zeroDivide
      exact works_of_frame (by rfl) (by rfl)
    · refine (Works.trans ?_ ((works_writeAlr ..).trans (works_writeAhr ..))).done
      exact works_of_frame (by rfl) (by rfl)
  case ldbInd | ldubInd | ldhInd | lduhInd | ldwInd => apply outcomes_loadIndirect
  case ldbInc | ldubInc | ldhInc | lduhInc | ldwInc => apply outcomes_loadIncrement
  case ldbSp | ldubSp | ldhSp | lduhSp | ldwSp | ldbDp | ldubDp | ldhDp | lduhDp | ldwDp => apply outcomes_loadBase
  case stbInd | sthInd | stwInd => apply outcomes_storeIndirect
  case stbInc | sthInc | stwInc => apply outcomes_storeIncrement
  case stbSp | sthSp | stwSp | stbDp | sthDp | stwDp => apply outcomes_storeBase
  case btst => exact outcomes_orAbort Works.rfl fun _ _ => outcomes_frame (by rfl) (by rfl)
  case bclr | bset | bnot => apply outcomes_rewriteByte
  case extImm => exact outcomes_addImm _ _
  case extReg | extRegSra | extRegSrl | extRegSll | extSra | extSrl | extSll | extGt | extGe | extLt | extLe | extUgt |
    extUge | extUlt | extUle | extEq | extNe => exact outcomes_record_if (by rfl)
  case repeatReg | repeatImm => exact outcomes_frame (by rfl) (by rfl)
  case loopReg | loopRegImm | loopImm => exact outcomes_beginLoop _ _
  case addSp | subSp => exact (works_setSp ..).done
  case psrset | psrclr => exact (works_writePsr ..).done
  case ldwSs =>
    dsimp only
    split
    · exact outcomes_fault _
    · exact ((works_readSpecial ..).trans (works_setReg ..)).done
  case ldwSd =>
    dsimp only
    split
    · exact outcomes_fault _
    · exact ((works_setSpecial ..).trans (works_of_frame (by rfl) (by rfl))).done
  case satB | satUb | satH | satUh | satW | satUw => exact outcomes_saturate _ _ _
  case srlReg | srlLow | srlHigh | sllReg | sllLow | sllHigh | sraReg | sraLow | sraHigh | slaReg | slaLow | slaHigh |
    rrReg | rrLow | rrHigh | rlReg | rlLow | rlHigh => exact outcomes_shiftBy _ _ _
  case ldbReg | ldubReg | ldhReg | lduhReg | ldwReg | ldwImm | swap | swaph | mirror | addDp => exact (works_setReg ..).done
  case addReg | addImm | adc | subReg | subImm | sbc | cmpReg | cmpImm => exact outcomes_frame (by rfl) (by rfl)
  case andReg | andImm | orReg | orImm | xorReg | xorImm | notReg | notImm => exact outcomes_frame (by rfl) (by rfl)
  case scan0 | scan1 | ldcRead | ldcWrite | doC | ldCf => exact outcomes_frame (by rfl) (by rfl)

/-- Settles O11: of the ends an instruction can have in user mode, none but a trap entry and a reset leaves it. -/
theorem userModeIsolation : Obligations.UserModeIsolation := fun i s t hsv hme ht => (exec_outcomes i s t ht).user hsv hme

/-! ## Every step -/

theorem outcomes_endReset {i : Instr} {s : State} : Outcomes i s s.endReset := by
  unfold State.endReset
  have hrun : Works s { s with run := .running } := works_of_frame (by rfl) (by rfl)
  dsimp only
  split
  · exact hrun.outcomes (outcomes_mmuException _)
  · exact outcomes_next ⟨fun k => { k with pc := evenAddress_evenAddress _ }, by rfl, by rfl, by rfl, hrun.user⟩

theorem outcomes_idle {i : Instr} {s : State} (input : HostInput) : Outcomes i s (s.idle input) := by
  unfold State.idle
  split
  · next h => exact outcomes_interrupt h
  · exact outcomes_next Works.rfl

theorem works_fetched (s : State) : Works s s.fetched := by
  unfold State.fetched
  split
  · exact Works.rfl
  · exact works_of_frame (by rfl) (by rfl)

theorem fetch_poll (s : State) : s.poll.2.fetch = s.fetch := by
  unfold State.poll
  split <;> rfl

/-- A step ends as the instruction at the pc does, or as one that is no return (60_exceptions.md R568). -/
theorem step_outcome {s t : State} (h : step s = .next t) :
    ∃ i, Outcome i s t ∧ (i = .nop ∨ ∃ w, s.fetch = .ok w ∧ decodeHalf w = some i) := by
  have hpoll := works_poll s
  obtain ⟨kind, -, rfl⟩ | ⟨-, h⟩ | ⟨-, h⟩ | ⟨-, h⟩ | ⟨-, -, h⟩ := step_next h
  · exact ⟨.nop, hpoll.then (outcome_beginReset kind), .inl rfl⟩
  · exact ⟨.nop, hpoll.then (outcomes_endReset t h), .inl rfl⟩
  · exact ⟨.nop, hpoll.then (outcomes_idle _ t h), .inl rfl⟩
  · exact ⟨.nop, hpoll.then (outcomes_accept h t rfl), .inl rfl⟩
  · obtain ⟨w, i, hw, hi, h⟩ | ⟨-, h⟩ := runInstruction_next h
    · exact ⟨i, (hpoll.trans (works_fetched _)).then (exec_outcomes i _ t h), .inr ⟨w, fetch_poll s ▸ hw, hi⟩⟩
    · exact ⟨.nop, hpoll.then (outcomes_mmuException _ t h), .inl rfl⟩

/-- Settles O9: every end of a step keeps the invariant. -/
theorem stepKeepsWellKept : Obligations.StepKeepsWellKept := fun _ _ hs h => by
  obtain ⟨i, o, -⟩ := step_outcome h
  exact o.kept hs

/-- Settles O10. -/
theorem stepKeepsParameters : Obligations.StepKeepsParameters := fun _ _ h => by
  obtain ⟨i, o, -⟩ := step_outcome h
  exact o.params

/-- Settles O12: only `retm` clears ME and only `retd` clears DE. -/
theorem handlerModesEndByReturn : Obligations.HandlerModesEndByReturn := fun s t h hrun => by
  obtain ⟨i, o, hi⟩ := step_outcome h
  constructor
  · intro hs ht
    obtain rfl := o.me hrun hs ht
    obtain h | h := hi
    · cases h
    · exact h
  · intro hs ht
    obtain rfl := o.de hrun hs ht
    obtain h | h := hi
    · cases h
    · exact h

end Sys2Proof.Machine
end

section
/-! What the instructions that neither access memory nor take an exception leave alone. -/

namespace Sys2Proof.Machine
open Sys2Proof.Spec

/-! ## The frame of a quiet instruction -/

/-- The registers and the hidden state no quiet instruction's own effect changes. -/
def State.still (s : State) :=
  (s.mem, s.inputs, s.params, s.nmiInService, s.psr.me, s.psr.de, s.staleFetch)

/-- What instruction i may change on its way from s to t, LCO aside. -/
structure Frame (i : Instr) (s t : State) : Prop where
  still : t.still = s.still
  system : (∀ n r, i ≠ .ldwSd n r) → t.ttbr = s.ttbr ∧ t.dp = s.dp ∧ t.nmiMasked = s.nmiMasked
  stack : (∀ n r, i ≠ .ldwSd n r) → (∀ n, i ≠ .addSp n ∧ i ≠ .subSp n) → t.ssp = s.ssp ∧ t.usp = s.usp
  accumulator : (∀ n r, i ≠ .ldwSd n r) → writesAccumulator i = false → t.alr = s.alr ∧ t.ahr = s.ahr
  sor : (∀ n r, i ≠ .ldwSd n r) → isShift i = false → t.sor = s.sor
  lea : (∀ n r, i ≠ .ldwSd n r) → isLoop i = false → t.lea = s.lea
  lsa : (∀ n r, i ≠ .ldwSd n r) → isLoop i = false → isRepeat i = false → t.lsa = s.lsa
  stores : t.stores = s.stores ∨ (t.stores = [] ∧ branchForm i = some false)
  cop : (∀ r n, i ≠ .ldcRead r n ∧ i ≠ .ldcWrite n r) → (∀ c, i ≠ .doC c) → t.cop = s.cop
  run : i ≠ .halt → i ≠ .slp → t.run = s.run

/-- The count stays, unless the instruction sets it. -/
def KeepsCount (i : Instr) (s t : State) : Prop :=
  (∀ n r, i ≠ .ldwSd n r) → isLoop i = false → isRepeat i = false → t.lco = s.lco

/-- The end of a quiet instruction: its frame, with the change the end-of-instruction check makes to LCO
(50_loop_repeat.md R465, R475). -/
def QuietEnd (i : Instr) (s t : State) : Prop :=
  t.mem = s.mem ∧ (∀ q, t.byteAt q = s.byteAt q) ∧ t.inputs = s.inputs ∧ t.params = s.params ∧
    t.nmiInService = s.nmiInService ∧ t.psr.me = s.psr.me ∧ t.psr.de = s.psr.de ∧
    ((∀ n r, i ≠ .ldwSd n r) → t.ttbr = s.ttbr ∧ t.dp = s.dp ∧ t.nmiMasked = s.nmiMasked ∧
      ((∀ n, i ≠ .addSp n ∧ i ≠ .subSp n) → t.ssp = s.ssp ∧ t.usp = s.usp) ∧
      (writesAccumulator i = false → t.alr = s.alr ∧ t.ahr = s.ahr) ∧
      (isShift i = false → t.sor = s.sor) ∧
      (isLoop i = false → t.lea = s.lea ∧
        (isRepeat i = false → t.lsa = s.lsa ∧
          (t.lco = s.lco ∨ (t.lco = s.lco - 1 ∧ s.lco ≠ 0 ∧
            ((t.psr.rm = true ∧ s.pc = even s.lsa) ∨ (t.psr.lm = true ∧ s.pc = even s.lea))))))) ∧
    t.staleFetch = s.staleFetch ∧ (t.stores = s.stores ∨ (t.stores = [] ∧ branchForm i = some false)) ∧
    ((∀ r n, i ≠ .ldcRead r n ∧ i ≠ .ldcWrite n r) → (∀ c, i ≠ .doC c) → t.cop = s.cop) ∧
    (i ≠ .halt → i ≠ .slp → t.run = s.run)

/-- Every next state a result gives is such an end. -/
def Quiet (i : Instr) (s : State) (r : Result) : Prop := ∀ t, r = .next t → QuietEnd i s t

section

variable {i : Instr} {s t u : State} {r : Result}

/-- The check at the end of the instruction, as it changes LCO. -/
theorem complete_lco (s : State) (npc : Word) :
    (s.complete npc).lco = s.lco ∨ ((s.complete npc).lco = s.lco - 1 ∧ s.lco ≠ 0 ∧
      (((s.complete npc).psr.rm = true ∧ s.pc = evenAddress s.lsa) ∨
        ((s.complete npc).psr.lm = true ∧ s.pc = evenAddress s.lea))) := by
  rw [complete_eq]
  obtain ⟨hm, ha, he⟩ | ⟨-, hm, ha, he⟩ | ⟨-, -, he⟩ :=
    redirect_cases { s.retire with delay := none } s.pc (s.delay.getD npc) <;> rw [he]
  · split
    · exact .inl rfl
    · next h => exact .inr ⟨rfl, h, .inl ⟨hm, ha⟩⟩
  · split
    · exact .inl rfl
    · next h => exact .inr ⟨rfl, h, .inr ⟨hm, ha⟩⟩
  · exact .inl rfl

theorem Frame.complete (f : Frame i s u) (npc : Word) : Frame i s (u.complete npc) where
  still := by
    have h : (u.complete npc).still = u.still := by simp [State.still]
    exact h.trans f.still
  system h := by simpa using f.system h
  stack h k := by simpa using f.stack h k
  accumulator h k := by simpa using f.accumulator h k
  sor h k := by simpa using f.sor h k
  lea h k := by simpa using f.lea h k
  lsa h k l := by simpa using f.lsa h k l
  stores := by simpa using f.stores
  cop h k := by simpa using f.cop h k
  run h k := by simpa using f.run h k

theorem Frame.quietEnd (f : Frame i s t)
    (hlco : (∀ n r, i ≠ .ldwSd n r) → isLoop i = false → isRepeat i = false →
      t.lco = s.lco ∨ (t.lco = s.lco - 1 ∧ s.lco ≠ 0 ∧
        ((t.psr.rm = true ∧ s.pc = even s.lsa) ∨ (t.psr.lm = true ∧ s.pc = even s.lea)))) : QuietEnd i s t := by
  have hstill := f.still
  simp only [State.still, Prod.mk.injEq] at hstill
  obtain ⟨mem, inputs, params, nmi, me, de, stale⟩ := hstill
  refine ⟨mem, fun q => ?_, inputs, params, nmi, me, de, fun h => ?_, stale, f.stores, f.cop, f.run⟩
  · rw [State.byteAt, mem, State.byteAt]
  · obtain ⟨ttbr, dp, masked⟩ := f.system h
    exact ⟨ttbr, dp, masked, f.stack h, f.accumulator h, f.sor h, fun k => ⟨f.lea h k, fun l => ⟨f.lsa h k l, hlco h k l⟩⟩⟩

/-- Completing makes the check and changes nothing else the frame speaks of. -/
theorem Frame.completes (f : Frame i s u) (hcount : KeepsCount i s u) (hpc : u.pc = s.pc) (npc : Word) :
    Quiet i s (.next (u.complete npc)) := fun t ht => by
  obtain rfl := Host.Outcome.next.inj ht
  refine (f.complete npc).quietEnd fun h k l => ?_
  have hcheck := complete_lco u npc
  rwa [hcount h k l, f.lsa h k l, f.lea h k, hpc, ← even_eq_evenAddress] at hcheck

theorem Frame.ends (f : Frame i s t) (hcount : KeepsCount i s t) : Quiet i s (.next t) := fun _ ht =>
  Host.Outcome.next.inj ht ▸ f.quietEnd fun h k l => .inl (hcount h k l)

theorem quiet_of_issue {effect : State → Result} (hexec : exec i s = s.issue i effect) (hskip : Frame i s s)
    (h : Quiet i s (effect s)) : Quiet i s (exec i s) := fun t ht => by
  obtain ⟨-, -, rfl⟩ | ⟨-, ht⟩ := issue_next (hexec ▸ ht)
  · exact hskip.completes (fun _ _ _ => rfl) rfl _ _ rfl
  · exact h t ht

theorem quiet_fault (f : Fault) : Quiet i s (.fault f) := fun _ ht => by cases ht

/-! ## Which parts change -/

/-- The special registers, the NMI mask, the coprocessor, the run state, the stores remembered and the pc. -/
def State.specials (s : State) :=
  (s.ttbr, s.dp, s.nmiMasked, s.ssp, s.usp, s.lea, s.lsa, s.lco, s.cop, s.run, s.stores, s.pc)

theorem quiet_of_still (h : u.still = s.still) (hsp : u.specials = s.specials)
    (hacc : writesAccumulator i = false → u.alr = s.alr ∧ u.ahr = s.ahr) (hsor : isShift i = false → u.sor = s.sor) :
    Quiet i s u.done := by
  simp only [State.specials, Prod.mk.injEq] at hsp
  obtain ⟨ttbr, dp, masked, ssp, usp, lea, lsa, lco, cop, run, stores, pc⟩ := hsp
  exact Frame.completes
    { still := h, system := fun _ => ⟨ttbr, dp, masked⟩, stack := fun _ _ => ⟨ssp, usp⟩, accumulator := fun _ => hacc
      sor := fun _ => hsor, lea := fun _ _ => lea, lsa := fun _ _ _ => lsa, stores := .inl stores, cop := fun _ _ => cop
      run := fun _ _ => run } (fun _ _ _ => lco) pc _

/-- General registers and flags change at most. -/
theorem quiet_registers (h : u.still = s.still) (hsp : u.specials = s.specials) (hacc : (u.alr, u.ahr, u.sor) = (s.alr, s.ahr, s.sor)) :
    Quiet i s u.done := by
  simp only [Prod.mk.injEq] at hacc
  obtain ⟨alr, ahr, sor⟩ := hacc
  exact quiet_of_still h hsp (fun _ => ⟨alr, ahr⟩) fun _ => sor

theorem quiet_done : Quiet i s s.done := quiet_registers rfl rfl rfl

/-- An instruction that writes the accumulator. -/
theorem quiet_accumulator (hi : writesAccumulator i = true) (h : u.still = s.still) (hsp : u.specials = s.specials)
    (hsor : u.sor = s.sor) : Quiet i s u.done :=
  quiet_of_still h hsp (fun hf => absurd hi (Bool.eq_false_iff.mp hf)) fun _ => hsor

theorem still_writeAlr (s : State) (v : Word) : (s.writeAlr v).still = s.still := by simp [State.still]
theorem still_writeAhr (s : State) (v : Word) : (s.writeAhr v).still = s.still := by simp [State.still]
theorem specials_writeAlr (s : State) (v : Word) : (s.writeAlr v).specials = s.specials := by simp [State.specials]
theorem specials_writeAhr (s : State) (v : Word) : (s.writeAhr v).specials = s.specials := by simp [State.specials]

theorem quiet_writeAlr (hi : writesAccumulator i = true) (v : Word) : Quiet i s (s.writeAlr v).done :=
  quiet_accumulator hi (still_writeAlr ..) (specials_writeAlr ..) (writeAlr_sor ..)

theorem quiet_writeBoth (hi : writesAccumulator i = true) (v w : Word) : Quiet i s ((s.writeAhr v).writeAlr w).done :=
  quiet_accumulator hi ((still_writeAlr ..).trans (still_writeAhr ..)) ((specials_writeAlr ..).trans (specials_writeAhr ..))
    ((writeAlr_sor ..).trans (writeAhr_sor ..))

/-- An accumulation, and a clearing, change MO and the read window too. -/
theorem quiet_accumulation (hi : writesAccumulator i = true) (v w : Word) (mo : Bool) (window : Nat) :
    Quiet i s ({ (s.writeAhr v).writeAlr w with
      psr := { ((s.writeAhr v).writeAlr w).psr with mo := mo }, macWindow := window } : State).done := by
  have hstill := (still_writeAlr (s.writeAhr v) w).trans (still_writeAhr s v)
  have hspecials := (specials_writeAlr (s.writeAhr v) w).trans (specials_writeAhr s v)
  exact quiet_accumulator hi hstill hspecials ((writeAlr_sor ..).trans (writeAhr_sor ..))

theorem quiet_shiftBy (hi : isShift i = true) (op : Shift) (rd : Reg) (n : Nat) : Quiet i s (s.shiftBy op rd n) :=
  quiet_of_still rfl rfl (fun _ => ⟨rfl, rfl⟩) fun hf => absurd hi (Bool.eq_false_iff.mp hf)

theorem quiet_saturate (rd : Reg) (v : Word) (limit : Option Word) : Quiet i s (s.saturate rd v limit) := by
  unfold State.saturate
  split <;> exact quiet_registers rfl rfl rfl

theorem Frame.rfl : Frame i s s := ⟨by rfl, fun _ => ⟨by rfl, by rfl, by rfl⟩, fun _ _ => ⟨by rfl, by rfl⟩,
  fun _ _ => ⟨by rfl, by rfl⟩, fun _ _ => by rfl, fun _ _ => by rfl, fun _ _ _ => by rfl, .inl (by rfl), fun _ _ => by rfl,
  fun _ _ => by rfl⟩

theorem quiet_record (e : Option Ext) : Quiet i s (s.takePrefixRecord e) := by
  unfold State.takePrefixRecord
  split
  · exact Frame.ends { (Frame.rfl : Frame i s s) with } fun _ _ _ => by rfl
  · exact quiet_fault _

/-- A taken plain branch forgets the stores; a delayed branch and one that is not taken do not. -/
theorem quiet_branch {d taken : Bool} {target : Word} (hi : branchForm i = some d) : Quiet i s (s.branch d taken target) := by
  rw [branch_eq]
  split
  · exact Frame.ends { (Frame.rfl : Frame i s s) with } fun _ _ _ => by rfl
  · next hd =>
    have hplain : branchForm i = some false := by rw [hi, Bool.eq_false_iff.mpr hd]
    split
    · exact Frame.completes (by exact { (Frame.rfl : Frame i s s) with stores := .inr ⟨by rfl, hplain⟩ }) (fun _ _ _ => by rfl) (by rfl) _
    · exact quiet_done

theorem quiet_powerDown {mode : RunState} (hi : i = .halt ∨ i = .slp) : Quiet i s (s.powerDown mode) := by
  unfold State.powerDown
  split
  · intro t ht
    obtain rfl := Host.Outcome.next.inj ht
    obtain ⟨mem, bytes, inputs, params, nmi, me, de, specials, stale, stores, cop, -⟩ :=
      (Frame.rfl : Frame i s s).completes (fun _ _ _ => by rfl) (by rfl) (s.pc + 2) _ (by rfl)
    refine ⟨mem, bytes, inputs, params, nmi, me, de, specials, stale, stores, cop, fun h k => ?_⟩
    obtain rfl | rfl := hi
    · exact absurd (by rfl) h
    · exact absurd (by rfl) k
  · exact quiet_done

theorem quiet_beginLoop (hi : isLoop i = true) (last count : Word) : Quiet i s (s.beginLoop last count) := by
  have hno {p : Prop} (h : isLoop i = false) : p := absurd hi (Bool.eq_false_iff.mp h)
  unfold State.beginLoop
  split
  · exact quiet_fault _
  · exact Frame.completes (by exact { (Frame.rfl : Frame i s s) with lea := fun _ => hno, lsa := fun _ h => hno h })
      (fun _ h => hno h) (by rfl) _

theorem quiet_beginRepeat (hi : isRepeat i = true) (count : Word) : Quiet i s (s.beginRepeat count) := by
  have hno {p : Prop} (h : isRepeat i = false) : p := absurd hi (Bool.eq_false_iff.mp h)
  exact Frame.completes (by exact { (Frame.rfl : Frame i s s) with lsa := fun _ _ => hno }) (fun _ _ => hno) (by rfl) _

theorem quiet_setSp (v : Word) (hi : ∃ n, i = .addSp n ∨ i = .subSp n) : Quiet i s (s.setSp v).done := by
  have hno {p : Prop} (h : ∀ n, i ≠ .addSp n ∧ i ≠ .subSp n) : p := by
    obtain ⟨n, hi | hi⟩ := hi
    · exact absurd hi (h n).1
    · exact absurd hi (h n).2
  unfold State.setSp
  split <;> exact Frame.completes (by exact { (Frame.rfl : Frame i s s) with stack := fun _ => hno }) (fun _ _ _ => by rfl) (by rfl) _

theorem setSpecial_keeps (s : State) (n : SReg) (v : Word) : (s.setSpecial n v).still = s.still ∧
    (s.setSpecial n v).stores = s.stores ∧ (s.setSpecial n v).cop = s.cop ∧ (s.setSpecial n v).run = s.run := by
  unfold State.setSpecial
  split
  · exact ⟨by rfl, by rfl, by rfl, by rfl⟩
  · unfold State.setSp
    split <;> exact ⟨by rfl, by rfl, by rfl, by rfl⟩
  iterate 6 exact ⟨by rfl, by rfl, by rfl, by rfl⟩
  · split <;> exact ⟨by rfl, by rfl, by rfl, by rfl⟩
  · exact ⟨by rfl, by rfl, by rfl, by rfl⟩
  · exact ⟨by rfl, by rfl, by rfl, by rfl⟩
  · split <;> exact ⟨by rfl, by rfl, by rfl, by rfl⟩
  · exact ⟨by rfl, by rfl, by rfl, by rfl⟩

theorem quiet_setSpecial {n : SReg} {r : Reg} (v : Word) (masked : Bool) :
    Quiet (.ldwSd n r) s ({ s.setSpecial n v with nmiMasked := masked } : State).done := by
  obtain ⟨still, stores, cop, run⟩ := setSpecial_keeps s n v
  have hno {p : Prop} (h : ∀ m q, Instr.ldwSd n r ≠ .ldwSd m q) : p := absurd rfl (h n r)
  have hpc : ({ s.setSpecial n v with nmiMasked := masked } : State).pc = s.pc := setSpecial_pc s n v
  refine Frame.completes ?_ hno hpc _
  exact
    { still := still, system := hno, stack := hno, accumulator := hno, sor := hno, lea := hno, lsa := hno
      stores := .inl stores, cop := fun _ _ => cop, run := fun _ _ => run }

theorem quiet_readSpecial (n : SReg) (rd : Reg) :
    Quiet i s ((s.readSpecial n).2.put rd (s.readSpecial n).1) := by
  unfold State.readSpecial State.readPsr
  split
  · split <;> exact quiet_registers (by rfl) (by rfl) (by rfl)
  · split <;> exact quiet_registers (by rfl) (by rfl) (by rfl)

end

/-! ## Every quiet instruction -/

theorem exec_quiet (i : Instr) (hi : isQuiet i = true) (s : State) : Quiet i s (exec i s) := by
  cases i <;> (apply quiet_of_issue; rfl; exact Frame.rfl)
  case nop => exact quiet_done
  case slp | halt => apply quiet_powerDown; simp
  case jrgt | jrge | jrlt | jrle | jrugt | jruge | jrult | jrule | jreq | jrne | jpRel | jpReg | jpr =>
    exact quiet_branch (by rfl)
  case extImm | extReg | extRegSra | extRegSrl | extRegSll | extSra | extSrl | extSll | extGt | extGe | extLt | extLe | extUgt |
    extUge | extUlt | extUle | extEq | extNe => exact quiet_record _
  case mltH | mltuH => exact quiet_writeAlr (by rfl) _
  case mltHw | mltW | mltuW | div1 => exact quiet_writeBoth (by rfl) _ _
  case macclr | mac1H | mac1Hw | mac1W => exact quiet_accumulation (by rfl) _ _ _ _
  case div2s rs =>
    dsimp only
    generalize (if s.psr.n then s.ahr - s.reg rs else s.ahr + s.reg rs) = rest
    split
    · exact quiet_writeBoth (by rfl) _ _
    · exact quiet_done
  case div3s =>
    split
    · exact quiet_writeAlr (by rfl) _
    · exact quiet_done
  case loopReg | loopRegImm | loopImm => exact quiet_beginLoop (by rfl) _ _
  case repeatReg | repeatImm => exact quiet_beginRepeat (by rfl) _
  case addSp n => exact quiet_setSp _ ⟨n, .inl (by rfl)⟩
  case subSp n => exact quiet_setSp _ ⟨n, .inr (by rfl)⟩
  case srlReg | srlLow | srlHigh | sllReg | sllLow | sllHigh | sraReg | sraLow | sraHigh | slaReg | slaLow | slaHigh |
    rrReg | rrLow | rrHigh | rlReg | rlLow | rlHigh => exact quiet_shiftBy (by rfl) _ _ _
  case satB | satUb | satH | satUh | satW | satUw => exact quiet_saturate _ _ _
  case ldwSs =>
    dsimp only
    split
    · exact quiet_fault _
    · exact quiet_readSpecial _ _
  case ldwSd =>
    dsimp only
    split
    · exact quiet_fault _
    · exact quiet_setSpecial _ _
  case ldcRead r n =>
    refine Frame.completes ?_ (fun _ _ _ => by rfl) (by rfl) _
    exact { (Frame.rfl : Frame _ s s) with cop := fun h _ => absurd (by rfl) (h r n).1 }
  case ldcWrite n r =>
    refine Frame.completes ?_ (fun _ _ _ => by rfl) (by rfl) _
    exact { (Frame.rfl : Frame _ s s) with cop := fun h _ => absurd (by rfl) (h r n).2 }
  case doC c =>
    refine Frame.completes ?_ (fun _ _ _ => by rfl) (by rfl) _
    exact { (Frame.rfl : Frame _ s s) with cop := fun _ h => absurd (by rfl) (h c) }
  case ldbReg | ldubReg | ldhReg | lduhReg | ldwReg | ldwImm | swap | swaph | mirror | addDp | scan0 | scan1 | ldCf | psrset |
    psrclr | addReg | addImm | adc | subReg | subImm | sbc | cmpReg | cmpImm | andReg | andImm | orReg | orImm | xorReg |
    xorImm | notReg | notImm => exact quiet_registers (by rfl) (by rfl) (by rfl)
  all_goals cases hi

/-- Settles O59: each quiet instruction keeps its frame to its end. -/
theorem quietInstructionFrame : Obligations.QuietInstructionFrame := fun i s t hi ht => exec_quiet i hi s t ht

end Sys2Proof.Machine
end

section
/-! Multiplication, division and single accumulations (43_muldiv.md, 44_mac.md). -/

namespace Sys2Proof.Machine
open Sys2Proof.Spec

/-! ## Multiplication (43_muldiv.md R282 to R286) -/

theorem ofNat_lowHalves (a b : Word) : BitVec.ofNat 32 (a.toNat % 65536 * (b.toNat % 65536)) =
    (a.setWidth 16).setWidth 32 * (b.setWidth 16).setWidth 32 := by
  apply BitVec.eq_of_toNat_eq
  rw [BitVec.toNat_ofNat, BitVec.toNat_mul, ← ofNat_mod_eq a 16, ← ofNat_mod_eq b 16]
  simp only [BitVec.toNat_ofNat]
  rw [Nat.mod_eq_of_lt (a := a.toNat % 2 ^ 16) (by omega), Nat.mod_eq_of_lt (a := b.toNat % 2 ^ 16) (by omega),
    show 65536 = 2 ^ 16 from rfl]

theorem ofInt_unsignedProduct (a b : Word) :
    BitVec.ofInt 64 ((a.toNat : Int) * (b.toNat : Int)) = a.setWidth 64 * b.setWidth 64 := by
  rw [← Int.natCast_mul, BitVec.ofInt_natCast, BitVec.ofNat_mul, BitVec.ofNat_toNat, BitVec.ofNat_toNat]

/-- An effect that keeps the pc completes at the code after it. -/
theorem done_of_pc {s t : State} (h : t.pc = s.pc) : t.done = .next (t.complete (s.pc + 2)) := by
  rw [State.done, h]

/-- Settles O33. -/
theorem multiplication : Obligations.Multiplication := fun s rd rs => by
  simp only [lowHalf_eq, withAcc_eq, ofInt_unsignedProduct, ofNat_lowHalves, withAlr_eq]
  refine ⟨?_, ?_, ?_, ?_, ?_⟩ <;> (apply runsTo_of_issue; rfl)
  · exact done_of_pc (writeAlr_pc ..)
  · exact done_of_pc (writeAlr_pc ..)
  · exact done_of_pc (writeAcc_pc ..)
  · exact done_of_pc (writeAcc_pc ..)
  · exact done_of_pc (writeAcc_pc ..)

/-! ## Division (43_muldiv.md R287 to R293) -/

theorem toNat_shiftedPair (ahr alr : Word) :
    ((ahr ++ alr : BitVec 64) <<< 1).toNat = (ahr.toNat * 8589934592 + alr.toNat * 2) % 18446744073709551616 := by
  rw [BitVec.toNat_shiftLeft, toNat_append_add, Nat.shiftLeft_eq]
  omega

theorem shiftedPair_low (ahr alr : Word) : ((ahr ++ alr : BitVec 64) <<< 1).extractLsb' 0 32 = alr <<< 1 := by
  apply BitVec.eq_of_toNat_eq
  rw [BitVec.extractLsb'_toNat, toNat_shiftedPair, BitVec.toNat_shiftLeft, Nat.shiftLeft_eq, Nat.shiftRight_zero]
  omega

theorem toNat_double_or (x : Word) (b : Bool) :
    ((x <<< 1) ||| (if b then 1#32 else 0#32)).toNat = x.toNat * 2 % 4294967296 + b.toNat := by
  have hdouble : (x <<< 1).toNat = (x.toNat % 2147483648) <<< 1 := by
    rw [BitVec.toNat_shiftLeft, Nat.shiftLeft_eq, Nat.shiftLeft_eq]
    omega
  have hbit : (if b then 1#32 else 0#32).toNat = b.toNat := by cases b <;> rfl
  rw [BitVec.toNat_or, hdouble, hbit, ← Nat.shiftLeft_add_eq_or_of_lt (i := 1) (Bool.toNat_lt b), Nat.shiftLeft_eq]
  omega

theorem toNat_msb (x : Word) : x.msb.toNat = x.toNat / 2147483648 := by
  have hx := x.isLt
  rw [BitVec.msb_eq_decide]
  by_cases h : 2 ^ (32 - 1) ≤ x.toNat
  · rw [decide_eq_true h, Bool.toNat_true]
    omega
  · rw [decide_eq_false h, Bool.toNat_false]
    omega

theorem shiftedPair_high (ahr alr : Word) :
    ((ahr ++ alr : BitVec 64) <<< 1).extractLsb' 32 32 = (ahr <<< 1) ||| (if alr.msb then 1#32 else 0#32) := by
  apply BitVec.eq_of_toNat_eq
  have hahr := ahr.isLt
  have halr := alr.isLt
  rw [BitVec.extractLsb'_toNat, toNat_shiftedPair, toNat_double_or, toNat_msb, Nat.shiftRight_eq_div_pow]
  omega

/-- A flag in front of a word, as a 33-bit number. -/
theorem toNat_ofBool_append (b : Bool) (x : Word) :
    (BitVec.ofBool b ++ x : BitVec 33).toNat = (if b then 4294967296 else 0) + x.toNat := by
  rw [toNat_append_add, BitVec.toNat_ofBool]
  cases b <;> simp

theorem toNat_trial (ds n : Bool) (a b : BitVec 33) :
    (if ds == n then a - b else a + b).toNat =
      (if ds = n then a.toNat + (8589934592 - b.toNat) else a.toNat + b.toNat) % 8589934592 := by
  by_cases h : ds = n
  · rw [if_pos (beq_iff_eq.mpr h), if_pos h, BitVec.toNat_sub]
    omega
  · rw [if_neg (mt beq_iff_eq.mp h), if_neg h, BitVec.toNat_add]

theorem double_or_one (x : Word) : (x <<< 1) ||| 1#32 = (x <<< 1) + 1#32 := by
  apply BitVec.eq_of_toNat_eq
  have h := toNat_double_or x true
  rw [if_pos rfl] at h
  rw [h, BitVec.toNat_add, BitVec.toNat_shiftLeft, Nat.shiftLeft_eq, show (1#32).toNat = 1 from rfl, Bool.toNat_true]
  omega

/-- The division step as the rule prints it (43_muldiv.md R289). -/
theorem divisionBy_eq (ds n : Bool) (ahr alr d : Word) : divisionBy ds n ahr alr d = divisionStep ds n ahr alr d := by
  unfold divisionBy divisionStep
  dsimp only
  rw [shiftedPair_high, shiftedPair_low, double_or_one]
  generalize (ahr <<< 1 ||| if alr.msb then 1#32 else 0#32) = high
  have htrial := toNat_trial ds n (BitVec.ofBool ds ++ high) (BitVec.ofBool n ++ d)
  rw [toNat_ofBool_append, toNat_ofBool_append] at htrial
  rw [← htrial]
  generalize (if ds == n then (BitVec.ofBool ds ++ high : BitVec 33) - (BitVec.ofBool n ++ d)
    else BitVec.ofBool ds ++ high + (BitVec.ofBool n ++ d)) = tmp
  have hmsb : decide (4294967296 ≤ tmp.toNat) = tmp.msb := (BitVec.msb_eq_decide tmp).symm
  have hlow : BitVec.ofNat 32 tmp.toNat = tmp.setWidth 32 := by
    apply BitVec.eq_of_toNat_eq
    rw [BitVec.toNat_ofNat, BitVec.toNat_setWidth]
  rw [hmsb, hlow]
  simp only [beq_iff_eq]
  rfl

/-- Settles O34. -/
theorem divisionSteps : Obligations.DivisionSteps := fun s rs => by
  simp only [divisionBy_eq, ← BitVec.msb_eq_toInt, withAhr_eq, withAlr_eq]
  refine ⟨fun hd => ⟨?_, ?_⟩, ?_, ?_, ?_⟩ <;> (apply runsTo_of_issue; rfl)
  · exact (if_neg hd).trans (done_of_pc (writeAhr_pc ..))
  · exact (if_neg hd).trans (done_of_pc (writeAhr_pc ..))
  · exact done_of_pc ((writeAlr_pc ..).trans (writeAhr_pc ..))
  · dsimp only
    generalize (if s.psr.n then s.ahr - s.reg rs else s.ahr + s.reg rs) = rest
    by_cases h : s.psr.ds = true ∧ rest = 0
    · rw [if_pos h, if_pos (by simpa using h)]
      exact done_of_pc ((writeAlr_pc ..).trans (writeAhr_pc ..))
    · rw [if_neg h, if_neg (by simpa using h)]
      rfl
  · have hneg : BitVec.ofInt 32 (-s.alr.toInt) = 0 - s.alr := by
      rw [BitVec.ofInt_neg, BitVec.ofInt_toInt]
      exact (BitVec.zero_sub _).symm
    by_cases h : s.psr.ds = s.psr.n
    · rw [if_pos h, if_neg (by simpa using h)]
      rfl
    · rw [if_neg h, if_pos (by simpa using h), hneg]
      exact done_of_pc (writeAlr_pc ..)

/-- The quotient rounded toward zero and its remainder are the only ones (43_muldiv.md R292). -/
theorem tdiv_tmod_unique {a d q r : Int} (hd : d ≠ 0) (ha : a = q * d + r) (hr : r.natAbs < d.natAbs) (hsign : 0 ≤ r * a) :
    a.tdiv d = q ∧ a.tmod d = r := by
  have heq : r + d * q = a := by rw [ha, Int.mul_comm, Int.add_comm]
  rcases Int.lt_trichotomy a 0 with hneg | hzero | hpos
  · have hle : r ≤ 0 := Int.not_lt.mp fun hr =>
      absurd hsign (Int.not_le.mpr (Int.mul_neg_of_pos_of_neg hr hneg))
    exact (Int.tdiv_tmod_unique' (Int.le_of_lt hneg) hd).mpr ⟨heq, by omega, hle⟩
  · have hdvd : d.natAbs ∣ r.natAbs := Int.natAbs_dvd_natAbs.mpr ⟨-q, by rw [Int.mul_neg]; omega⟩
    have hr0 : r = 0 := Int.natAbs_eq_zero.mp (Nat.eq_zero_of_dvd_of_lt hdvd hr)
    have hq : q = 0 := (Int.mul_eq_zero.mp (show d * q = 0 by omega)).resolve_left hd
    exact (Int.tdiv_tmod_unique (by omega) hd).mpr ⟨heq, by omega, by omega⟩
  · have hge : 0 ≤ r := Int.not_lt.mp fun hr =>
      absurd hsign (Int.not_le.mpr (Int.mul_neg_of_neg_of_pos hr hpos))
    exact (Int.tdiv_tmod_unique (Int.le_of_lt hpos) hd).mpr ⟨heq, hge, by omega⟩

/-- Settles O35. -/
theorem wholeDivision : Obligations.WholeDivision := fun s rs hd => by
  simp only [← BitVec.msb_eq_toInt, withAhr_eq, withAlr_eq]
  refine ⟨fun q r ha hr hsign => ?_, fun q r ha hr => ?_⟩ <;> (apply runsTo_of_issue; rfl)
  · have hd' : (s.reg rs).toInt ≠ 0 := fun h => hd (BitVec.eq_of_toInt_eq h)
    obtain ⟨rfl, rfl⟩ := tdiv_tmod_unique hd' ha hr hsign
    exact (if_neg hd).trans (done_of_pc ((writeAhr_pc ..).trans (writeAlr_pc ..)))
  · have hpos : 0 < (s.reg rs).toNat := Nat.pos_of_ne_zero fun h => hd (BitVec.eq_of_toNat_eq h)
    obtain ⟨rfl, rfl⟩ := (Nat.div_mod_unique hpos).mpr
      (show r + (s.reg rs).toNat * q = s.alr.toNat ∧ r < (s.reg rs).toNat from ⟨by rw [ha, Nat.mul_comm, Nat.add_comm], hr⟩)
    have hq : BitVec.ofNat 32 (s.alr.toNat / (s.reg rs).toNat) = s.alr / s.reg rs := by
      rw [← BitVec.toNat_udiv, BitVec.ofNat_toNat, BitVec.setWidth_eq]
    have hr' : BitVec.ofNat 32 (s.alr.toNat % (s.reg rs).toNat) = s.alr % s.reg rs := by
      rw [← BitVec.toNat_umod, BitVec.ofNat_toNat, BitVec.setWidth_eq]
    rw [hq, hr']
    exact (if_neg hd).trans (done_of_pc ((writeAhr_pc ..).trans (writeAlr_pc ..)))

/-! ## Single accumulation (44_mac.md R310, R318 to R321) -/

theorem accumulator_eq (s : State) : accumulator s = (s.ahr ++ s.alr : BitVec 64).toInt :=
  (toInt_append_add (m := 31) s.ahr s.alr).symm

theorem accumulate_eq (s : State) (x y : Int) : accumulate s x y = s.macStep x y := by
  unfold accumulate State.macStep
  dsimp only
  rw [withAcc_eq, accumulator_eq, writeAcc_psr, Bool.decide_or]

/-- Settles O38. -/
theorem singleAccumulation : Obligations.SingleAccumulation := fun s rd rs => by
  simp only [lowHalf_eq, accumulate_eq, withAhr_eq, withAlr_eq]
  refine ⟨?_, ?_, ?_, ?_⟩ <;> (apply runsTo_of_issue; rfl)
  · exact done_of_pc (writeAcc_pc ..)
  · exact done_of_pc (writeAcc_pc ..)
  · exact done_of_pc (writeAcc_pc ..)
  · dsimp only
    rw [writeAlr_psr, writeAhr_psr]
    exact done_of_pc ((writeAlr_pc ..).trans (writeAhr_pc ..))

end Sys2Proof.Machine
end

section
/-! The restart address, the ends of instructions in an exception, and zero division (52_ext.md R534, 60_exceptions.md R570,
43_muldiv.md R294). -/

namespace Sys2Proof.Machine
open Sys2Proof.Spec

/-! ## Restart addresses and trap entries -/

theorem restartsAt_restart (s : State) : RestartsAt s s.restart.1 s.restart.2 := by
  unfold RestartsAt
  by_cases h : s.ext.count < 7
  · rw [if_pos h, restart_short h]
    exact ⟨rfl, rfl⟩
  · rw [if_neg h, restart_long h]
    exact ⟨⟨_, Nat.mod_lt _ (by omega), rfl⟩, rfl⟩

theorem entryMaps_congr {s t : State} {n : Nat} {p1 p2 p3 : Word} (h : EntryMaps s n p1 p2 p3) (hssp : t.ssp = s.ssp)
    (httbr : t.ttbr = s.ttbr) (hme : t.psr.me = s.psr.me) (hsv : t.psr.sv = s.psr.sv) (hparams : t.params = s.params) :
    EntryMaps t n p1 p2 p3 := by
  obtain ⟨h1, h2, h3⟩ := h
  refine ⟨?_, ?_, ?_⟩
  · rw [translate_congr hme hsv hparams, hssp, h1]
  · rw [translate_congr hme hsv hparams, hssp, h2]
  · rw [vector, httbr]
    exact (translate_congr (s := { t with psr := { t.psr with sv := false } }) (t := { s with psr := { s.psr with sv := false } })
      hme rfl hparams ..).trans h3

/-- A trap entry drops the prefixes, so it does not matter whether they have been used up. -/
theorem entered_retire (s : State) (level : Option (BitVec 4)) (nmi : Bool) (ret p1 p2 p3 : Word) :
    entered s.retire level nmi ret p1 p2 p3 =
      entered { s with dsWindow := s.dsWindow - 1, macWindow := s.macWindow - 1 } level nmi ret p1 p2 p3 := rfl

theorem raise_entered {s : State} {n : BitVec 8} {p1 p2 p3 : Word} (c : Cause) (ret restart : Word) (hme : s.psr.me = false)
    (hde : s.psr.de = false) (hmaps : EntryMaps s n.toNat p1 p2 p3) :
    s.raise c n ret restart = .next (entered s none false ret p1 p2 p3) :=
  (raise_trap hme hde).trans (trap_eq_entered hmaps ..)

/-- An instruction that has completed enters a trap with the address after it saved, outside handlers
(60_exceptions.md R570, R573, R578). -/
theorem raise_retired {s f : State} {n : BitVec 8} {p1 p2 p3 : Word} (c : Cause) (ret : Word) (hme : s.psr.me = false)
    (hde : s.psr.de = false) (hmaps : EntryMaps s n.toNat p1 p2 p3)
    (hf : f = { s with dsWindow := s.dsWindow - 1, macWindow := s.macWindow - 1 }) :
    ∃ p t, RestartsAt f p t ∧
      s.restart.2.retire.raise c n ret s.restart.1 = .next (entered t none false ret p1 p2 p3) := by
  have hr := restartsAt_restart f
  have hstate : s.restart.2.retire.raise c n ret s.restart.1 = .next (entered s.restart.2.retire none false ret p1 p2 p3) := by
    obtain h | h := restart_state s <;> rw [h]
    · exact raise_entered (s := s.retire) c ret _ hme hde hmaps
    · exact raise_entered (s := ({ s with free := s.free + 1 } : State).retire) c ret _ hme hde hmaps
  refine ⟨_, _, hr, hstate.trans ?_⟩
  subst hf
  by_cases h : s.ext.count < 7
  · rw [restart_short h, restart_short (by exact h)]
    rfl
  · rw [restart_long h, restart_long (by exact h)]
    rfl

/-! ## Zero division (43_muldiv.md R294) -/

theorem zeroDivide_entered {s f : State} {p1 p2 p3 : Word} (hme : s.psr.me = false) (hde : s.psr.de = false)
    (hmaps : EntryMaps s 4 p1 p2 p3) (hf : f = { s with dsWindow := s.dsWindow - 1, macWindow := s.macWindow - 1 }) :
    ∃ p t, RestartsAt f p t ∧ s.zeroDivide = .next (entered t none false (s.pc + 2) p1 p2 p3) :=
  raise_retired .zeroDivision (s.pc + 2) hme hde hmaps hf

theorem zeroDivide_fault {s : State} (h : s.psr.me = true ∨ s.psr.de = true) :
    s.zeroDivide = .fault (.exceptionInHandler .zeroDivision) := by
  unfold State.zeroDivide
  obtain hs | hs := restart_state s <;> dsimp only <;> rw [hs]
  · exact raise_handler h
  · exact raise_handler h

/-- What a zero division needs of the state u the division leaves, f being u with the read windows counted. -/
theorem zero_division {i : Instr} {s u f : State} {effect : State → Result} (hexec : exec i s = s.issue i effect)
    (heffect : effect s = u.zeroDivide) (hfree : s.Free i) (hf : f = { u with dsWindow := u.dsWindow - 1, macWindow := u.macWindow - 1 })
    (hpc : u.pc = s.pc) (hssp : u.ssp = s.ssp) (httbr : u.ttbr = s.ttbr) (hparams : u.params = s.params)
    (hme : u.psr.me = s.psr.me) (hde : u.psr.de = s.psr.de) (hsv : u.psr.sv = s.psr.sv) :
    (s.psr.me = false → s.psr.de = false → ∀ p1 p2 p3, EntryMaps s 4 p1 p2 p3 →
      ∃ p t, RestartsAt f p t ∧ exec i s = .next (entered t none false (s.pc + 2) p1 p2 p3)) ∧
    ((s.psr.me = true ∨ s.psr.de = true) → exec i s = .fault (.exceptionInHandler .zeroDivision)) := by
  rw [exec_of_issue hexec heffect hfree]
  constructor
  · intro h1 h2 p1 p2 p3 hmaps
    rw [← hpc]
    exact zeroDivide_entered (hme.trans h1) (hde.trans h2) (entryMaps_congr hmaps hssp httbr hme hsv hparams) hf
  · rw [← hme, ← hde]
    exact zeroDivide_fault

/-- Flags and free values do not meet the accumulator's mirrors. -/
theorem writeAlr_with (s : State) (v : Word) {p : Psr} (k : Nat) (h : p.lc = s.psr.lc) :
    ({ s with psr := p, free := k } : State).writeAlr v = { s.writeAlr v with psr := p, free := k } := by
  unfold State.writeAlr
  dsimp only
  rw [h]
  split <;> rfl

theorem writeAhr_with (s : State) (v : Word) {p : Psr} (k : Nat) (h : p.hc = s.psr.hc) :
    ({ s with psr := p, free := k } : State).writeAhr v = { s.writeAhr v with psr := p, free := k } := by
  unfold State.writeAhr
  dsimp only
  rw [h]
  split <;> rfl

theorem writeAccumulators_with (s : State) (v w : Word) {p : Psr} (k : Nat) (hlc : p.lc = s.psr.lc) (hhc : p.hc = s.psr.hc) :
    (({ s with psr := p, free := k } : State).writeAlr v).writeAhr w =
      { (s.writeAlr v).writeAhr w with psr := p, free := k } := by
  rw [writeAlr_with s v k hlc, writeAhr_with _ w k (hhc.trans (by rw [writeAlr_psr]))]

/-- Settles O36: the four divisions leave the state the statement writes out, and then take the trap. -/
theorem zeroDivisionTraps : Obligations.ZeroDivisionTraps := fun i s rs => by
  dsimp only
  intro hi hfree hzero
  have hend (t : State) : t.endDivision0 (s.reg rs) = ({ t with dsWindow := 3 } : State).zeroDivide := if_pos hzero
  have hmsb : (s.reg rs).msb = false := by rw [hzero]; rfl
  have hneg : (s.alr.toInt < 0) = (s.alr.msb = true) := by rw [BitVec.msb_eq_toInt, decide_eq_true_eq]
  rcases hi with rfl | rfl | rfl | rfl
  · apply zero_division (hfree := hfree)
    · rfl
    · exact hend _
    · dsimp only
      rw [hmsb, writeAhr_macWindow, withAhr_eq]
      simp only [hneg, Bool.decide_eq_true]
    · exact writeAhr_pc ..
    · exact writeAhr_ssp ..
    · exact writeAhr_ttbr ..
    · exact writeAhr_params ..
    all_goals rfl
  · apply zero_division (hfree := hfree)
    · rfl
    · exact hend _
    · dsimp only
      rw [writeAhr_macWindow, withAhr_eq]
      rfl
    · exact writeAhr_pc ..
    · exact writeAhr_ssp ..
    · exact writeAhr_ttbr ..
    · exact writeAhr_params ..
    all_goals rfl
  · apply zero_division (hfree := hfree)
    · rfl
    · exact if_pos hzero
    · dsimp only [State.draw]
      rw [writeAccumulators_with s _ _ _ (by rfl) (by rfl), withAhr_eq, withAlr_eq, hmsb]
      dsimp only
      rw [writeAhr_macWindow, writeAlr_macWindow, writeAhr_dsWindow, writeAlr_dsWindow]
      simp [BitVec.msb_eq_toInt]
    · exact (writeAhr_pc ..).trans (writeAlr_pc ..)
    · exact (writeAhr_ssp ..).trans (writeAlr_ssp ..)
    · exact (writeAhr_ttbr ..).trans (writeAlr_ttbr ..)
    · exact (writeAhr_params ..).trans (writeAlr_params ..)
    all_goals simp
  · apply zero_division (hfree := hfree)
    · rfl
    · exact if_pos hzero
    · dsimp only [State.draw]
      rw [writeAccumulators_with s _ _ _ (by rfl) (by rfl), withAhr_eq, withAlr_eq]
      dsimp only
      rw [writeAhr_macWindow, writeAlr_macWindow, writeAhr_dsWindow, writeAlr_dsWindow]
      rfl
    · exact (writeAhr_pc ..).trans (writeAlr_pc ..)
    · exact (writeAhr_ssp ..).trans (writeAlr_ssp ..)
    · exact (writeAhr_ttbr ..).trans (writeAlr_ttbr ..)
    · exact (writeAhr_params ..).trans (writeAlr_params ..)
    all_goals simp

end Sys2Proof.Machine
end

section
/-! The unsigned division by steps: after k steps ALR and AHR hold the quotient and the remainder of the k high bits of the
dividend, and ALR above the quotient the bits still to come (43_muldiv.md R288, R289). -/

namespace Sys2Proof.Machine
open Sys2Proof.Spec

theorem toNat_shiftedPair_high (ahr alr : Word) : (((ahr ++ alr : BitVec 64) <<< 1).extractLsb' 32 32).toNat =
    ahr.toNat * 2 % 4294967296 + alr.toNat / 2147483648 := by
  rw [shiftedPair_high, toNat_double_or, toNat_msb]

theorem toNat_shiftedPair_low (ahr alr : Word) : (((ahr ++ alr : BitVec 64) <<< 1).extractLsb' 0 32).toNat =
    alr.toNat * 2 % 4294967296 := by
  rw [shiftedPair_low, BitVec.toNat_shiftLeft, Nat.shiftLeft_eq]

/-- One unsigned step: the remainder doubled with the next bit, less the divisor if it reaches it. -/
theorem divisionBy_unsigned {ahr alr d : Word} {h : Nat} (hh : ahr.toNat * 2 + alr.toNat / 2147483648 = h)
    (hlt : h < 4294967296) :
    (divisionBy false false ahr alr d).1.toNat = (if d.toNat ≤ h then h - d.toNat else h) ∧
    (divisionBy false false ahr alr d).2.toNat = alr.toNat * 2 % 4294967296 + (if d.toNat ≤ h then 1 else 0) := by
  have hd := d.isLt
  have hhigh := toNat_shiftedPair_high ahr alr
  have hlow := toNat_shiftedPair_low ahr alr
  unfold divisionBy
  dsimp only
  generalize ((ahr ++ alr : BitVec 64) <<< 1).extractLsb' 32 32 = high at *
  generalize ((ahr ++ alr : BitVec 64) <<< 1).extractLsb' 0 32 = low at *
  rw [if_pos rfl, if_neg Bool.false_ne_true]
  have hval : high.toNat = h := by omega
  by_cases hle : d.toNat ≤ h
  · rw [if_pos (decide_eq_false (by omega)), if_pos hle, if_pos hle]
    refine ⟨?_, ?_⟩
    · rw [BitVec.toNat_ofNat]
      omega
    · rw [BitVec.toNat_add, hlow, show (1 : Word).toNat = 1 from rfl]
      omega
  · rw [if_neg (by rw [decide_eq_true (by omega)]; decide), if_neg hle, if_neg hle]
    exact ⟨hval, hlow⟩

/-- The quotient and the remainder with one more bit of the dividend. -/
theorem div_mod_double {p d b : Nat} (hd : 0 < d) (hb : b < 2) :
    (2 * p + b) / d = 2 * (p / d) + (if d ≤ 2 * (p % d) + b then 1 else 0) ∧
    (2 * p + b) % d = if d ≤ 2 * (p % d) + b then 2 * (p % d) + b - d else 2 * (p % d) + b := by
  have hmod := Nat.mod_lt p hd
  have hp := Nat.div_add_mod p d
  generalize p / d = q at *
  generalize p % d = r at *
  refine (Nat.div_mod_unique hd).mpr ?_
  subst hp
  split
  · exact ⟨by rw [Nat.mul_add, Nat.mul_add, Nat.mul_left_comm]; omega, by omega⟩
  · exact ⟨by rw [Nat.mul_add, Nat.mul_left_comm]; omega, by omega⟩

/-- The state after k steps of dividing n by d. -/
structure Dividing (n : Nat) (d : Word) (rs : Reg) (k : Nat) (t : State) : Prop where
  ext : t.ext = Ext.empty
  delay : t.delay = none
  rm : t.psr.rm = false
  lm : t.psr.lm = false
  lc : t.psr.lc = true → rs ≠ 4
  hc : t.psr.hc = true → rs ≠ 5
  ds : t.psr.ds = false
  sign : t.psr.n = false
  divisor : t.reg rs = d
  remainder : t.ahr.toNat = n / 2 ^ (32 - k) % d.toNat
  quotient : t.alr.toNat = n % 2 ^ (32 - k) * 2 ^ k + n / 2 ^ (32 - k) / d.toNat

/-- The numbers of one step: the next bit comes from bit 31 of ALR, and nothing is lost. -/
theorem division_numbers {n d k : Nat} (hn : n < 4294967296) (hk : k < 32) {alr ahr : Nat}
    (hahr : ahr = n / 2 ^ (32 - k) % d) (halr : alr = n % 2 ^ (32 - k) * 2 ^ k + n / 2 ^ (32 - k) / d) :
    ∃ b, b < 2 ∧ n / 2 ^ (32 - (k + 1)) = 2 * (n / 2 ^ (32 - k)) + b ∧ alr / 2147483648 = b ∧
      alr * 2 % 4294967296 = n % 2 ^ (32 - (k + 1)) * 2 ^ (k + 1) + 2 * (n / 2 ^ (32 - k) / d) ∧ ahr < 2147483648 := by
  have hpow : 2 ^ (32 - (k + 1)) * 2 ^ k = 2147483648 := by
    rw [← Nat.pow_add, show 32 - (k + 1) + k = 31 by omega]
  have hstep : 2 ^ (32 - k) = 2 ^ (32 - (k + 1)) * 2 := by
    rw [← Nat.pow_succ, show (32 - (k + 1)).succ = 32 - k by omega]
  rw [hstep] at hahr halr ⊢
  generalize 2 ^ (32 - (k + 1)) = m at *
  have hm : 0 < m := Nat.pos_of_mul_pos_right (b := 2 ^ k) (by omega)
  have hp : n / (m * 2) < 2 ^ k := by
    rw [Nat.div_lt_iff_lt_mul (by omega), Nat.mul_comm, Nat.mul_right_comm, hpow]
    omega
  have hq : n / (m * 2) / d ≤ n / (m * 2) := Nat.div_le_self ..
  have hr : n / (m * 2) % d ≤ n / (m * 2) := Nat.mod_le ..
  have hx : (n % m + 1) * 2 ^ k ≤ m * 2 ^ k := Nat.mul_le_mul_right _ (Nat.mod_lt n hm)
  have hpk : 2 ^ k ≤ m * 2 ^ k := Nat.le_mul_of_pos_left _ hm
  refine ⟨n / m % 2, Nat.mod_lt _ (by decide), ?_, ?_⟩
  · rw [← Nat.div_div_eq_div_mul]
    omega
  · rw [Nat.mod_mul, Nat.add_mul, Nat.mul_right_comm, hpow] at halr
    rw [Nat.pow_succ, ← Nat.mul_assoc]
    rw [Nat.add_mul] at hx
    have hb : n / m % 2 < 2 := Nat.mod_lt _ (by decide)
    generalize n % m * 2 ^ k = x at *
    generalize n / m % 2 = b at *
    generalize n / (m * 2) / d = q at *
    generalize 2 ^ k = y at *
    refine ⟨?_, ?_, ?_⟩ <;> omega

theorem complete_of_plain {s : State} (hd : s.delay = none) (hr : s.psr.rm = false) (hl : s.psr.lm = false) (npc : Word) :
    s.complete npc = { retired s with pc := npc } := by
  rw [complete_plain (fun h => absurd h.1 (Bool.eq_false_iff.mp hr)) (fun h => absurd h.1 (Bool.eq_false_iff.mp hl)), hd]
  rfl

theorem Dividing.free {n k : Nat} {d : Word} {rs : Reg} {t : State} (h : Dividing n d rs k t) (i : Instr) : t.Free i :=
  free_of_plain h.delay h.rm h.lm (by rw [h.ext]; rfl) i

/-- `div1` makes one step. -/
theorem Dividing.step {n k : Nat} {d : Word} {rs : Reg} {t : State} (h : Dividing n d rs k t) (hn : n < 4294967296)
    (hd : d ≠ 0) (hk : k < 32) : ∃ u, exec (.div1 rs) t = .next u ∧ Dividing n d rs (k + 1) u := by
  obtain ⟨b, hb, hbits, hbit, hlow, hahr⟩ := division_numbers hn hk h.remainder h.quotient
  have hpos : 0 < d.toNat := Nat.pos_of_ne_zero fun h0 => hd (BitVec.eq_of_toNat_eq h0)
  obtain ⟨hrem, hquot⟩ := divisionBy_unsigned (ahr := t.ahr) (alr := t.alr) (d := d)
    (h := 2 * (n / 2 ^ (32 - k) % d.toNat) + b) (by rw [h.remainder, hbit, Nat.mul_comm]) (by rw [← h.remainder]; omega)
  obtain ⟨hdiv, hmod⟩ := div_mod_double (p := n / 2 ^ (32 - k)) hpos hb
  have hexec := (divisionSteps t rs).2.1 (h.free _)
  rw [h.ds, h.sign, h.divisor, withAlr_eq, withAhr_eq] at hexec
  refine ⟨_, hexec, ?_⟩
  generalize hres : divisionBy false false t.ahr t.alr d = res at *
  have hpsr : ((t.writeAhr res.1).writeAlr res.2).psr = t.psr := by rw [writeAlr_psr, writeAhr_psr]
  rw [complete_of_plain (by rw [writeAlr_delay, writeAhr_delay, h.delay]) (by rw [hpsr, h.rm]) (by rw [hpsr, h.lm])]
  rw [hlow, Nat.add_assoc] at hquot
  exact
    { ext := rfl, delay := rfl
      rm := by rw [← h.rm, ← hpsr]; rfl
      lm := by rw [← h.lm, ← hpsr]; rfl
      lc := fun hlc => h.lc (by rw [← hpsr]; exact hlc)
      hc := fun hhc => h.hc (by rw [← hpsr]; exact hhc)
      ds := by rw [← h.ds, ← hpsr]; rfl
      sign := by rw [← h.sign, ← hpsr]; rfl
      divisor := by
        refine Eq.trans ?_ h.divisor
        refine (writeAlr_reg ..).trans ?_
        rw [if_neg (by rw [writeAhr_psr]; exact fun hr => h.lc hr.1 hr.2), writeAhr_reg, if_neg fun hr => h.hc hr.1 hr.2]
      remainder := by
        rw [hbits, hmod]
        exact (congrArg BitVec.toNat ((writeAlr_ahr ..).trans (writeAhr_ahr ..))).trans hrem
      quotient := by
        rw [hbits, hdiv]
        exact (congrArg BitVec.toNat (writeAlr_alr ..)).trans hquot }

/-- `div0u` with a divisor that is not 0 starts the division. -/
theorem dividing_begin {s : State} {rs : Reg} (hext : s.ext = Ext.empty) (hdelay : s.delay = none) (hrm : s.psr.rm = false)
    (hlm : s.psr.lm = false) (hlc : s.psr.lc = true → rs ≠ 4) (hhc : s.psr.hc = true → rs ≠ 5) (hd : s.reg rs ≠ 0) :
    ∃ t, exec (.div0u rs) s = .next t ∧ Dividing s.alr.toNat (s.reg rs) rs 0 t := by
  have halr := s.alr.isLt
  have hexec := ((divisionSteps s rs).1 hd).2 (free_of_plain hdelay hrm hlm (by rw [hext]; rfl) _)
  refine ⟨_, hexec, ?_⟩
  rw [withAhr_eq, complete_of_plain (by exact (writeAhr_delay ..).trans hdelay) (by exact hrm) (by exact hlm)]
  exact
    { ext := rfl, delay := rfl, rm := hrm, lm := hlm, lc := hlc, hc := hhc, ds := rfl, sign := rfl
      divisor := (writeAhr_reg ..).trans (if_neg fun hr => hhc hr.1 hr.2)
      remainder := by
        rw [Nat.div_eq_of_lt halr, Nat.zero_mod]
        exact congrArg BitVec.toNat (writeAhr_ahr ..)
      quotient := by
        rw [Nat.div_eq_of_lt halr, Nat.zero_div, Nat.mod_eq_of_lt halr, Nat.pow_zero, Nat.mul_one]
        exact congrArg BitVec.toNat (writeAhr_alr ..) }

theorem Dividing.steps {n : Nat} {d : Word} {rs : Reg} (hn : n < 4294967296) (hd : d ≠ 0) : ∀ (m k : Nat) (t : State),
    Dividing n d rs k t → k + m = 32 → ∃ u, execAll (List.replicate m (.div1 rs)) t = some u ∧ Dividing n d rs 32 u
  | 0, _, t, h, hk => by
    obtain rfl : _ = 32 := hk
    exact ⟨t, rfl, h⟩
  | m + 1, k, t, h, hk => by
    obtain ⟨u, hu, hstep⟩ := h.step hn hd (by omega)
    obtain ⟨v, hv, hend⟩ := hstep.steps hn hd m (k + 1) u (by omega)
    refine ⟨v, ?_, hend⟩
    rw [List.replicate_succ, execAll, hu]
    exact hv

/-- Settles O37, by the invariant of the 32 steps. -/
theorem unsignedStepDivision : Obligations.UnsignedStepDivision := fun s rs hext hdelay hrm hlm hlc hhc hd => by
  obtain ⟨t, ht, hbegin⟩ := dividing_begin hext hdelay hrm hlm hlc hhc hd
  obtain ⟨u, hu, hend⟩ := hbegin.steps s.alr.isLt hd 32 0 t rfl
  refine ⟨u, ?_, ?_, ?_⟩
  · rw [execAll, ht]
    exact hu
  · rw [hend.quotient, Nat.sub_self, Nat.pow_zero, Nat.mod_one, Nat.zero_mul, Nat.zero_add, Nat.div_one]
  · rw [hend.remainder, Nat.sub_self, Nat.pow_zero, Nat.div_one]

end Sys2Proof.Machine
end

section
/-! Loads, stores, bit operations, single pushes and pops, jumps, calls and returns (40_data_transfer.md, 46_bitop.md,
47_pushpop.md, 48_branch.md). -/

namespace Sys2Proof.Machine
open Sys2Proof.Spec

/-! ## Loads (40_data_transfer.md R161 to R165) -/

theorem memRead_eq {s : State} {z : Size} {a p : Word} (ha : ¬ unaligned z a) (h : s.translate .read a = some p) :
    s.memRead z a = .ok (s.physRead z p) := by
  rw [memRead_aligned (misaligned_of_not_unaligned ha), load_eq z h]

theorem not_unaligned_byte (a : Word) : ¬ unaligned .byte a := fun h => by rw [unaligned_iff] at h; cases h

theorem loadsAt_indirect {i : Instr} {s : State} {z : Size} {signed : Bool} {rd rb : Reg}
    (hexec : exec i s = s.issue i fun s => s.loadIndirect z signed rd rb) (ha : ¬ unaligned z (s.reg rb + s.extDisp)) :
    LoadsAt i z signed rd s (s.reg rb + s.extDisp) := fun p hp => by
  refine runsTo_of_issue hexec ?_
  rw [widened_eq, State.loadIndirect, memRead_eq ha hp]
  rfl

theorem loadsAt_base {i : Instr} {s : State} {z : Size} {signed : Bool} {rd : Reg} {base : State → Word} {n : BitVec 6}
    (hexec : exec i s = s.issue i fun s => s.loadBase z signed (base s) rd n) :
    LoadsAt i z signed rd s (base s + s.ext.baseDisp z n) := fun p hp => by
  refine runsTo_of_issue hexec ?_
  rw [widened_eq, State.loadBase, load_eq z hp]
  rfl

theorem loadsThenAdds_increment {i : Instr} {s : State} {z : Size} {signed : Bool} {rd rb : Reg}
    (hexec : exec i s = s.issue i fun s => s.loadIncrement z signed rd rb) : LoadsThenAdds i z signed rd rb s :=
  fun ha p hp => by
  refine runsTo_of_issue hexec ?_
  rw [widened_eq, State.loadIncrement, memRead_eq ha hp]
  rfl

/-- Settles O25. -/
theorem loadsComplete : Obligations.LoadsComplete := by
  refine ⟨fun s rd rb n => ⟨?_, ?_, ?_, ?_, ?_, ?_, ?_, ?_, ?_, ?_, ?_, ?_, ?_, ?_, ?_⟩,
    fun s rd rb => ⟨?_, ?_, ?_, ?_, ?_⟩⟩
  · exact loadsAt_indirect (by rfl) (not_unaligned_byte _)
  · exact loadsAt_indirect (by rfl) (not_unaligned_byte _)
  · exact loadsAt_indirect (by rfl)
  · exact loadsAt_indirect (by rfl)
  · exact loadsAt_indirect (by rfl)
  iterate 5 exact loadsAt_base (base := State.sp) (by rfl)
  iterate 5 exact loadsAt_base (base := State.dp) (by rfl)
  iterate 5 exact loadsThenAdds_increment (by rfl)

/-! ## Stores (40_data_transfer.md R161 to R164) -/

/-- The rest u of an instruction neither reads nor writes memory. -/
def LeavesMemory (u : State → State) : Prop := ∀ t m, u { t with mem := m } = { u t with mem := m }

/-- A store whose rest leaves memory alone changes the bytes stored and nothing else of memory. -/
theorem storesAt_of_effect {i : Instr} {z : Size} {s : State} {u : State → State} {a v : Word} {effect : State → Result}
    (hexec : exec i s = s.issue i effect) (hrest : LeavesMemory u)
    (heffect : ∀ p, s.translate .write a = some p → effect s = .next (u ((s.noteStore z p).physWrite z p v))) :
    StoresAt i z s u a v := fun hfree p hp => by
  have hu : u ((s.noteStore z p).physWrite z p v) =
      { u (s.noteStore z p) with mem := ((s.noteStore z p).physWrite z p v).mem } := hrest _ _
  refine ⟨_, exec_of_issue hexec (heffect p hp) hfree, ?_, fun q => ?_⟩
  · rw [noted_eq, SameButMemory, hu]
  · rw [hu]
    exact byteAt_physWrite_stored (s.noteStore z p) z p v q

theorem leavesMemory_complete (npc : Word) : LeavesMemory fun t => t.complete npc := fun t m => by
  unfold State.complete State.redirect State.retire
  dsimp only
  by_cases hrepeat : (t.psr.rm && t.pc == evenAddress t.lsa) = true
  · rw [if_pos hrepeat, if_pos hrepeat]
    split <;> rfl
  · rw [if_neg hrepeat, if_neg hrepeat]
    by_cases hloop : (t.psr.lm && t.pc == evenAddress t.lea) = true
    · rw [if_pos hloop, if_pos hloop]
      split <;> rfl
    · rw [if_neg hloop, if_neg hloop]

theorem LeavesMemory.after {u w : State → State} (hu : LeavesMemory u) (hw : LeavesMemory w) : LeavesMemory fun t => u (w t) :=
  fun t m => (congrArg u (hw t m)).trans (hu (w t) m)

theorem leavesMemory_setReg (r : Reg) (v : Word) : LeavesMemory fun t => t.setReg r v := fun _ _ => rfl

theorem leavesMemory_withSp (v : Word) : LeavesMemory fun t => withSp t v := fun t m => by
  unfold withSp
  dsimp only
  split <;> rfl

theorem storesAt_indirect {i : Instr} {s : State} {z : Size} {rb rs : Reg}
    (hexec : exec i s = s.issue i fun s => s.storeIndirect z rb rs) (ha : ¬ unaligned z (s.reg rb + s.extDisp)) :
    StoresAt i z s (fun t => t.complete (s.pc + 2)) (s.reg rb + s.extDisp) (s.reg rs) :=
  storesAt_of_effect hexec (leavesMemory_complete _) fun p hp => by
    rw [State.storeIndirect, memWrite_aligned _ (misaligned_of_not_unaligned ha), store_eq z _ hp]
    rfl

theorem storesAt_base {i : Instr} {s : State} {z : Size} {rs : Reg} {base : State → Word} {n : BitVec 6}
    (hexec : exec i s = s.issue i fun s => s.storeBase z (base s) n rs) :
    StoresAt i z s (fun t => t.complete (s.pc + 2)) (base s + s.ext.baseDisp z n) (s.reg rs) :=
  storesAt_of_effect hexec (leavesMemory_complete _) fun p hp => by
    rw [State.storeBase, store_eq z _ hp]
    rfl

theorem storesAt_increment {i : Instr} {s : State} {z : Size} {rb rs : Reg}
    (hexec : exec i s = s.issue i fun s => s.storeIncrement z rb rs) (ha : ¬ unaligned z (s.reg rb)) :
    StoresAt i z s (fun t => (t.setReg rb (s.reg rb + s.postIncrement z)).complete (s.pc + 2)) (s.reg rb) (s.reg rs) :=
  storesAt_of_effect hexec ((leavesMemory_complete _).after (leavesMemory_setReg _ _)) fun p hp => by
    rw [State.storeIncrement, memWrite_aligned _ (misaligned_of_not_unaligned ha), store_eq z _ hp]
    rfl

/-- Settles O26. -/
theorem storesComplete : Obligations.StoresComplete := by
  refine ⟨fun s rb rs n => ⟨?_, ?_, ?_, ?_, ?_, ?_, ?_, ?_, ?_⟩, fun s rb rs => ⟨?_, ?_, ?_⟩⟩
  · exact storesAt_indirect (by rfl) (not_unaligned_byte _)
  · exact storesAt_indirect (by rfl)
  · exact storesAt_indirect (by rfl)
  iterate 3 exact storesAt_base (base := State.sp) (by rfl)
  iterate 3 exact storesAt_base (base := State.dp) (by rfl)
  · exact storesAt_increment (by rfl) (not_unaligned_byte _)
  · exact storesAt_increment (by rfl)
  · exact storesAt_increment (by rfl)

/-! ## Bit operations (46_bitop.md R361 to R367) -/

theorem storesAt_rewriteByte {i : Instr} {s : State} {rb : Reg} {f : Word → Word} {p : Word}
    (hexec : exec i s = s.issue i fun s => s.rewriteByte rb f) (hp : s.translate .read (s.reg rb + s.ext.immDisp) = some p) :
    StoresAt i .byte s (fun t => t.complete (s.pc + 2)) (s.reg rb + s.ext.immDisp) (f (s.physRead .byte p)) :=
  storesAt_of_effect hexec (leavesMemory_complete _) fun q hq => by
    rw [State.rewriteByte, State.bitAddress, load_eq .byte hp, orAbort_ok, store_eq .byte _ hq]
    rfl

theorem and_one_shiftLeft (b : Word) {k : Nat} (hk : k < 32) : decide (b &&& 1#32 <<< k = 0) = !b.getLsbD k := by
  rw [show 1#32 <<< k = BitVec.twoPow 32 k from rfl, BitVec.and_twoPow]
  cases b.getLsbD k
  · rfl
  · refine decide_eq_false fun h => ?_
    have hbit := congrArg (BitVec.getLsbD · k) h
    simp [hk] at hbit

/-- Settles O32. -/
theorem bitOperations : Obligations.BitOperations := fun s rb k p => by
  dsimp only
  intro hp
  refine ⟨?_, ?_, ?_, ?_⟩
  · apply runsTo_of_issue
    · rfl
    · rw [and_one_shiftLeft _ (by omega)]
      dsimp only
      rw [State.bitAddress, load_eq .byte hp]
      rfl
  · have hnot (x : Word) : 0xFFFFFFFF#32 ^^^ x = ~~~x := BitVec.not_def.symm
    rw [hnot]
    exact storesAt_rewriteByte (f := fun v => v &&& ~~~(bitMask k)) (by rfl) hp
  · exact storesAt_rewriteByte (f := fun v => v ||| bitMask k) (by rfl) hp
  · exact storesAt_rewriteByte (f := fun v => v ^^^ bitMask k) (by rfl) hp

/-! ## Single pushes and pops (47_pushpop.md R370, R373, R374) -/

/-- Settles O40. -/
theorem pushAndPop : Obligations.PushAndPop := fun s r => by
  refine ⟨storesAt_of_effect (by rfl) ((leavesMemory_complete _).after (leavesMemory_withSp _)) fun p hp => ?_, fun p hp => ?_⟩
  · rw [pushWord_eq _ hp, orAbort_ok, withSp_eq, State.done, setSp_pc]
    rfl
  · apply runsTo_of_issue
    · rfl
    · dsimp only
      rw [popWord_eq hp, orAbort_ok, withSp_eq, State.done]
      dsimp only
      rw [setReg_pc, setSp_pc]

/-! ## Jumps, calls and returns (48_branch.md R391 to R398, R410 to R415) -/

theorem leavesMemory_branched (d taken : Bool) (target : Word) : LeavesMemory fun t => branched t d taken target := fun t m => by
  unfold branched
  dsimp only
  split
  · rfl
  · split
    · exact leavesMemory_complete target { t with stores := [] } m
    · exact leavesMemory_complete (t.pc + 2) t m

theorem storesAt_call {i : Instr} {s : State} {d : Bool} {target : State → Word} (hexec : exec i s = s.issue i fun s => s.call d (target s)) :
    StoresAt i .word s (fun t => branched (withSp t (s.sp - 4)) d true (target s)) (s.sp - 4) (if d then s.pc + 4 else s.pc + 2) :=
  storesAt_of_effect hexec ((leavesMemory_branched d true _).after (leavesMemory_withSp _)) fun p hp => by
    rw [State.call, pushWord_eq _ hp, orAbort_ok, branch_eq_branched]
    rfl

/-- Settles O44. -/
theorem jumpsCallsReturn : Obligations.JumpsCallsReturn := by
  rw [Obligations.JumpsCallsReturn, even_eq_evenAddress]
  refine ⟨fun s d j rb => ⟨?_, ?_, ?_⟩, fun s d j rb => ⟨?_, ?_, fun p hfree hp => ?_⟩⟩
  iterate 3
    apply exec_of_issue
    · rfl
    · exact branch_eq_branched ..
  · exact storesAt_call (target := fun s => s.pc + s.ext.sign8 j) (by rfl)
  · exact storesAt_call (target := fun s => evenAddress (s.reg rb)) (by rfl)
  · apply exec_of_issue (hfree := hfree)
    · rfl
    · dsimp only
      rw [popWord_eq hp, orAbort_ok]
      exact branch_eq_branched ..

end Sys2Proof.Machine
end

section
/-! The step: fetches, reset, the events of a boundary, halted cores (60_exceptions.md R562, R568, R583 to R586, R600,
70_reset_and_hazards.md R620). -/

namespace Sys2Proof.Machine
open Sys2Proof.Spec

/-! ## What a step does, by the boundary's input -/

section

variable {s t : State} {input : HostInput} {r : Result}

theorem step_reset {kind : ResetKind} (hpoll : s.poll = (input, t)) (h : input.reset = some kind) :
    step s = .next (t.beginReset kind) := by
  simp only [step, hpoll, h]

theorem step_release (hpoll : s.poll = (input, t)) (hreset : input.reset = none) (hrun : t.run = .reset) :
    step s = t.endReset := by
  simp only [step, hpoll, hreset, hrun]

theorem step_idle (hpoll : s.poll = (input, t)) (hreset : input.reset = none) (hrun : t.run = .halt ∨ t.run = .sleep) :
    step s = t.idle input := by
  obtain hrun | hrun := hrun <;> simp only [step, hpoll, hreset, hrun]

theorem step_event (hpoll : s.poll = (input, t)) (hreset : input.reset = none) (hrun : t.run = .running)
    (h : t.boundaryEvent input = some r) : step s = r := by
  simp only [step, hpoll, hreset, hrun, h]

theorem step_instruction (hpoll : s.poll = (input, t)) (hreset : input.reset = none) (hrun : t.run = .running)
    (h : t.boundaryEvent input = none) : step s = t.runInstruction := by
  simp only [step, hpoll, hreset, hrun, h]

/-! ## Fetching (20_memory.md R87, R104) -/

theorem runInstruction_decoded {p : Word} {i : Instr} (hp : s.translate .fetch s.pc = some p)
    (h : decodeHalf (codeOfBytes s.params.bigEndian (s.byteAt p) (s.byteAt (p + 1))) = some i) :
    s.runInstruction = exec i (flagged s p) := by
  rw [flagged_eq, ← fetched_eq hp]
  simp only [State.runInstruction, fetch_eq hp, h]

theorem decode_pair {big : Bool} {b c : Byte} {i : Instr} (h : decode big [b, c] = .ok (i, [])) :
    decodeHalf (codeOfBytes big b c) = some i := by
  unfold decode at h
  dsimp only at h
  split at h
  · next hi =>
    obtain ⟨rfl, -⟩ := Prod.mk.inj (Except.ok.inj h)
    exact hi
  · cases h

/-- Settles O4. -/
theorem stepRunsDecoded : Obligations.StepRunsDecoded := fun s p i hrun hp h => by
  have hcode := decode_pair h
  refine ⟨fun hin => ?_, fun input rest hin hreset hevent => ?_⟩
  · rw [step_instruction (poll_empty hin) rfl hrun (boundaryEvent_none s)]
    exact runInstruction_decoded hp hcode
  · rw [step_instruction (poll_cons hin) hreset hrun hevent]
    exact runInstruction_decoded hp hcode

/-- Settles O5. -/
theorem fetchStops : Obligations.FetchStops := fun s hrun hin => by
  rw [step_instruction (poll_empty hin) rfl hrun (boundaryEvent_none s)]
  refine ⟨fun p hp hcode => ?_, fun hmiss => ?_⟩
  · simp only [State.runInstruction, fetch_eq hp, hcode]
  · have hrunmiss : s.runInstruction = s.mmuException s.pc := by simp only [State.runInstruction, State.fetch, hmiss]
    rw [hrunmiss]
    exact ⟨fun hde => mmuException_eq hde _, fun hde => mmuException_fault hde _⟩

end

/-! ## Reset (70_reset_and_hazards.md R620) -/

/-- Settles O6. -/
theorem resetState : Obligations.ResetState := by
  refine ⟨by decide, rfl, by decide, rfl, rfl, rfl, rfl, rfl⟩

/-- Settles O8. -/
theorem resetWellKept : Obligations.ResetWellKept :=
  { pc := by decide, ssp := by decide, usp := by decide, dp := by decide, ttbr := by decide
    delay := nofun, imm := by decide, mem := by decide }

theorem beginReset_reg (s : State) (kind : ResetKind) (n : Reg) :
    (s.beginReset kind).reg n = Config.freeWord (s.free + n.toNat) := by
  simp [State.beginReset, State.reg]

/-- On release the core runs on from the reset vector; a miss of it is the MMU exception. -/
theorem endReset_eq (s : State) :
    (∀ p, s.translate .read (vector s 0) = some p →
      s.endReset = .next { s with run := .running, pc := even (s.physRead .word p) }) ∧
    (s.translate .read (vector s 0) = none → s.endReset = s.mmuException s.pc) := by
  have hvector : s.vectorAddress 0#8 = vector s 0 := vectorAddress_eq s 0
  unfold State.endReset
  dsimp only
  rw [hvector]
  refine ⟨fun p hp => ?_, fun hp => ?_⟩
  · rw [load_eq (s := { s with run := .running }) .word hp, even_eq]
    rfl
  · rw [load_miss (s := { s with run := .running }) .word hp]
    rfl

/-- Settles O7. -/
theorem resetDuringRun : Obligations.ResetDuringRun := by
  refine ⟨fun s input rest kind hin hreset => ⟨_, step_reset (poll_cons hin) hreset, ?_⟩, fun s rest hrun hin => ?_⟩
  · have hreg := beginReset_reg { s with inputs := rest } kind
    dsimp only [State.beginReset] at hreg ⊢
    refine ⟨rfl, rfl, rfl, rfl, rfl, rfl, rfl, hreg, rfl, rfl, rfl, rfl, rfl, rfl, rfl, rfl, rfl, rfl, rfl, rfl, rfl, rfl,
      rfl, rfl, rfl, rfl⟩
  · have hstep : step s = ({ s with inputs := rest } : State).endReset := by
      obtain ⟨hnil, rfl⟩ | ⟨input, hcons, hreset⟩ := hin
      · rw [step_release (poll_empty hnil) rfl hrun, ← hnil]
      · exact step_release (poll_cons hcons) hreset hrun
    obtain ⟨hmapped, hmiss⟩ := endReset_eq { s with inputs := rest }
    refine ⟨fun p hp => ?_, fun hp hde => ?_, fun hp hde => ?_⟩
    · rw [hstep, hmapped p hp]
    · rw [hstep, hmiss hp]
      exact mmuException_eq (s := { s with inputs := rest }) hde _
    · rw [hstep, hmiss hp]
      exact mmuException_fault (s := { s with inputs := rest }) hde _

/-! ## Events (60_exceptions.md R562, R584 to R586) -/

section

variable {s : State} {input : HostInput} (ret : Word)

theorem accepts_iff (p : Psr) (r : Request) : p.accepts r = true ↔ p.ie = true ∧ p.il.toNat < r.level.toNat := by
  rw [Psr.accepts, Bool.and_eq_true, decide_eq_true_eq, BitVec.lt_def]

theorem toNat_requestVector (r : Request) : r.vector.toNat = 16 + r.source.val := by
  have h := r.source.isLt
  rw [Request.vector, BitVec.toNat_ofNat]
  omega

theorem interrupt_unlocked (hme : s.psr.me = false) (hde : s.psr.de = false) : s.interrupt input ret =
    if input.nmi && !s.nmiMasked && !s.nmiInService then some (s.trap 7#8 none true ret ret)
    else
      match input.request with
      | none => none
      | some r => if s.psr.accepts r then some (s.trap r.vector (some r.level) false ret ret) else none := by
  unfold State.interrupt
  rw [hme, hde, Bool.or_self, if_neg Bool.false_ne_true] <;> rfl

theorem nmi_test : (input.nmi && !s.nmiMasked && !s.nmiInService) = true ↔
    input.nmi = true ∧ s.nmiMasked = false ∧ s.nmiInService = false := by
  simp [and_assoc]

theorem interrupt_nmi (hme : s.psr.me = false) (hde : s.psr.de = false)
    (hnmi : input.nmi = true ∧ s.nmiMasked = false ∧ s.nmiInService = false) :
    s.interrupt input ret = some (s.trap 7#8 none true ret ret) := by
  rw [interrupt_unlocked ret hme hde, if_pos (nmi_test.mpr hnmi)]

theorem interrupt_request {r : Request} (hme : s.psr.me = false) (hde : s.psr.de = false)
    (hnmi : ¬ (input.nmi = true ∧ s.nmiMasked = false ∧ s.nmiInService = false)) (hr : input.request = some r)
    (hie : s.psr.ie = true) (hlevel : s.psr.il.toNat < r.level.toNat) :
    s.interrupt input ret = some (s.trap r.vector (some r.level) false ret ret) := by
  rw [interrupt_unlocked ret hme hde, if_neg (mt nmi_test.mp hnmi), hr]
  exact if_pos ((accepts_iff ..).mpr ⟨hie, hlevel⟩)

theorem interrupt_refused (h : ¬ (s.psr.me = false ∧ s.psr.de = false) ∨
    (¬ (input.nmi = true ∧ s.nmiMasked = false ∧ s.nmiInService = false) ∧
      ∀ r, ¬ (input.request = some r ∧ s.psr.ie = true ∧ s.psr.il.toNat < r.level.toNat))) :
    s.interrupt input ret = none := by
  cases hi : s.interrupt input ret with
  | none => rfl
  | some x =>
    obtain ⟨hme, hde, ⟨h1, h2, h3, -⟩ | ⟨q, hq, haccepts, -⟩⟩ := interrupt_some hi
    · obtain h | ⟨h, -⟩ := h
      · exact absurd ⟨hme, hde⟩ h
      · exact absurd ⟨h1, h2, h3⟩ h
    · obtain h | ⟨-, h⟩ := h
      · exact absurd ⟨hme, hde⟩ h
      · exact absurd ⟨hq, (accepts_iff ..).mp haccepts⟩ (h q)

theorem accept_quiet (hcount : s.ext.count = 0) (hdelay : s.delay = none)
    (h : ¬ (input.debugBreak = true ∧ s.psr.me = false ∧ s.psr.de = false)) : s.accept input ret = s.interrupt input ret := by
  unfold State.accept
  rw [if_neg (by simp [hcount, hdelay]), if_neg (by simpa [and_assoc] using h)]

theorem accept_debugBreak (hcount : s.ext.count = 0) (hdelay : s.delay = none) (hme : s.psr.me = false)
    (hde : s.psr.de = false) (h : input.debugBreak = true) : s.accept input ret = some (.next (debugEntered s ret)) := by
  unfold State.accept
  rw [if_neg (by simp [hcount, hdelay]), if_pos (by simp [hme, hde, h]), debugEntered_eq]

theorem accept_refused (h : ¬ (s.ext.count = 0 ∧ s.delay = none ∧ s.psr.me = false ∧ s.psr.de = false) ∨
    (input.debugBreak = false ∧ ¬ (input.nmi = true ∧ s.nmiMasked = false ∧ s.nmiInService = false) ∧
      ∀ r, ¬ (input.request = some r ∧ s.psr.ie = true ∧ s.psr.il.toNat < r.level.toNat))) :
    s.accept input ret = none := by
  cases hi : s.accept input ret with
  | none => rfl
  | some x =>
    obtain ⟨hcount, hdelay, ⟨hbreak, hme, hde, -⟩ | hi⟩ := accept_some hi
    · obtain h | ⟨h, -⟩ := h
      · exact absurd ⟨hcount, hdelay, hme, hde⟩ h
      · exact absurd hbreak (Bool.eq_false_iff.mp h)
    · obtain ⟨hme, hde, -⟩ := interrupt_some hi
      obtain h | ⟨-, h⟩ := h
      · exact absurd ⟨hcount, hdelay, hme, hde⟩ h
      · rw [interrupt_refused ret (.inr h)] at hi
        cases hi

end

/-- Settles O58. -/
theorem interruptAcceptance : Obligations.InterruptAcceptance := fun s input rest hrun hin hreset => by
  have hstep {r : Result} (h : ({ s with inputs := rest } : State).accept input s.pc = some r) : step s = r :=
    step_event (poll_cons hin) hreset hrun h
  dsimp only
  refine ⟨?_, ?_, ?_, ?_⟩
  · rintro ⟨hcount, hdelay, hme, hde⟩ hbreak
    exact hstep (accept_debugBreak (s := { s with inputs := rest }) _ hcount hdelay hme hde hbreak)
  · rintro ⟨hcount, hdelay, hme, hde⟩ hbreak hnmi p1 p2 p3 hmaps
    rw [hstep ((accept_quiet (s := { s with inputs := rest }) _ hcount hdelay (by simp [hbreak])).trans
      (interrupt_nmi (s := { s with inputs := rest }) _ hme hde hnmi))]
    exact trap_eq_entered (n := 7#8) hmaps _ _ _ _
  · rintro ⟨hcount, hdelay, hme, hde⟩ hbreak hnmi r ⟨hr, hie, hlevel⟩ p1 p2 p3 hmaps
    rw [hstep ((accept_quiet (s := { s with inputs := rest }) _ hcount hdelay (by simp [hbreak])).trans
      (interrupt_request (s := { s with inputs := rest }) _ hme hde hnmi hr hie hlevel))]
    rw [← toNat_requestVector] at hmaps
    exact trap_eq_entered hmaps _ _ _ _
  · intro h
    exact step_instruction (poll_cons hin) hreset hrun (accept_refused (s := { s with inputs := rest }) s.pc h)

/-! ## Halted cores (51_system_coproc.md R491 to R494, 60_exceptions.md R600) -/

theorem powerDown_enabled {s : State} (h : s.psr.sv = false ∨ s.psr.he = true) (mode : RunState) :
    s.powerDown mode = .next { s.complete (s.pc + 2) with run := mode } := by
  unfold State.powerDown
  rw [if_pos (by simpa using h)]

theorem powerDown_disabled {s : State} (hsv : s.psr.sv = true) (hhe : s.psr.he = false) (mode : RunState) :
    s.powerDown mode = .next (s.complete (s.pc + 2)) := by
  unfold State.powerDown
  rw [hsv, hhe, if_neg (by decide)]
  rfl

theorem idle_of_interrupt {s : State} {input : HostInput} {r : Result} (h : s.interrupt input s.pc = some r) :
    s.idle input = r := by
  simp only [State.idle, h]

theorem idle_quiet {s : State} {input : HostInput} (h : s.interrupt input s.pc = none) : s.idle input = .next s := by
  simp only [State.idle, h]

/-- Settles O49. -/
theorem powerDownAndWake : Obligations.PowerDownAndWake := by
  refine ⟨⟨fun s i mode hi hfree => ?_, fun s hrun hin => ?_⟩, fun s input rest hrun hin hreset => ?_⟩
  · obtain ⟨rfl, rfl⟩ | ⟨rfl, rfl⟩ := hi
    · refine ⟨fun h => ?_, fun hsv hhe => ?_⟩ <;> (apply exec_of_issue (hfree := hfree); rfl)
      · exact powerDown_enabled h _
      · exact powerDown_disabled hsv hhe _
    · refine ⟨fun h => ?_, fun hsv hhe => ?_⟩ <;> (apply exec_of_issue (hfree := hfree); rfl)
      · exact powerDown_enabled h _
      · exact powerDown_disabled hsv hhe _
  · rw [step_idle (poll_empty hin) rfl hrun]
    exact idle_quiet (interrupt_none ..)
  · dsimp only
    rw [step_idle (poll_cons hin) hreset hrun]
    refine ⟨?_, ?_, fun h => idle_quiet (interrupt_refused (s := { s with inputs := rest }) _ h)⟩
    · rintro ⟨hme, hde⟩ hnmi p1 p2 p3 hmaps
      rw [idle_of_interrupt (s := { s with inputs := rest }) (interrupt_nmi _ hme hde hnmi)]
      exact trap_eq_entered (n := 7#8) hmaps _ _ _ _
    · rintro ⟨hme, hde⟩ hnmi r ⟨hr, hie, hlevel⟩ p1 p2 p3 hmaps
      rw [idle_of_interrupt (s := { s with inputs := rest }) (interrupt_request _ hme hde hnmi hr hie hlevel)]
      rw [← toNat_requestVector] at hmaps
      exact trap_eq_entered hmaps _ _ _ _

end Sys2Proof.Machine
end

section
/-! Trap entries and returns, the software, debug and MMU exceptions (60_exceptions.md R563 to R597). -/

namespace Sys2Proof.Machine
open Sys2Proof.Spec

/-! ## Trap entry (R563, R570) -/

theorem byteAt_entered {s : State} {level : Option (BitVec 4)} {nmi : Bool} {ret p1 p2 p3 q : Word}
    (h1 : 4 ≤ (q - p1).toNat) (h2 : 4 ≤ (q - p2).toNat) : (entered s level nmi ret p1 p2 p3).byteAt q = s.byteAt q := by
  have hword : Size.word.bytes.toNat = 4 := rfl
  refine (byteAt_physWrite_of_outside (s.physWrite .word p1 ret) .word (p := p2) s.psr.toWord ?_).trans
    (byteAt_physWrite_of_outside s .word (p := p1) ret ?_)
  · rw [hword]
    omega
  · rw [hword]
    omega

/-- Settles O52. -/
theorem trapEntry : Obligations.TrapEntry := fun s n level nmi ret restart p1 p2 p3 => by
  refine ⟨vectorAddress_eq s n, ?_, ?_, ?_, fun hmaps => ⟨trap_eq_entered hmaps .., fun q => byteAt_entered⟩⟩ <;>
    rw [← vectorAddress_eq, State.vectorAddress]
  · simp (disch := decide) only [BitVec.extractLsb'_append_eq_of_le]
    simp
  · simp (disch := decide) only [BitVec.extractLsb'_append_eq_of_le, BitVec.extractLsb'_append_eq_of_add_le]
    simp
  · simp (disch := decide) only [BitVec.extractLsb'_append_eq_of_add_le]
    simp

/-! ## Software exception (R578) -/

theorem toNat_softwareVector (n : BitVec 2) : (0b000011#6 ++ n : BitVec 8).toNat = 12 + n.toNat := by
  rw [toNat_append_add]
  rfl

/-- Settles O53. -/
theorem softwareException : Obligations.SoftwareException := fun s n hfree => by
  have hpsr : s.restart.2.psr = s.psr := by obtain h | h := restart_state s <;> rw [h]
  refine ⟨fun hme hde p1 p2 p3 hmaps => ⟨_, _, restartsAt_restart s, ?_⟩, fun h => ?_⟩ <;>
    (apply exec_of_issue (hfree := hfree); rfl)
  · rw [← toNat_softwareVector] at hmaps
    have hnext : EntryMaps s.restart.2.retire (0b000011#6 ++ n : BitVec 8).toNat p1 p2 p3 := by
      obtain h | h := restart_state s <;> rw [h]
      · exact hmaps
      · exact hmaps
    exact raise_entered .software _ _ ((congrArg Psr.me hpsr).trans hme) ((congrArg Psr.de hpsr).trans hde) hnext
  · exact raise_handler (s := s.restart.2.retire) (by rwa [retire_psr, hpsr])

/-! ## Returning from a trap (R580) -/

/-- Settles O54. -/
theorem returnFromTrap : Obligations.ReturnFromTrap := fun s p1 p2 hfree h1 h2 => by
  apply exec_of_issue (hfree := hfree)
  · rfl
  · rw [returnFromTrap_eq h1 h2, orAbort_ok, even_eq]

/-- Reading a word that lies apart from the one written. -/
theorem physRead_physWrite_apart (s : State) {p q : Word} (v : Word) (h1 : 4 ≤ (p - q).toNat) (h2 : 4 ≤ (q - p).toNat) :
    (s.physWrite .word q v).physRead .word p = s.physRead .word p := by
  have hbyte (k : Word) (hk : k.toNat < 4) : (s.physWrite .word q v).byteAt (p + k) = s.byteAt (p + k) := by
    refine byteAt_physWrite_of_outside s .word v ?_
    rw [show Size.word.bytes.toNat = 4 from rfl]
    rw [BitVec.toNat_sub] at h1 h2 ⊢
    rw [BitVec.toNat_add]
    omega
  have h0 := hbyte 0 (by decide)
  rw [show p + 0 = p from BitVec.add_zero p] at h0
  unfold State.physRead
  dsimp only
  rw [h0, hbyte 1 (by decide), hbyte 2 (by decide), hbyte 3 (by decide)]
  rfl

/-- Writing all of a saved PSR with the supervisor's rights restores it, but for ME and DE (10_state.md R29). -/
theorem write_toWord (p q : Psr) : p.write true q.toWord = { q with de := p.de, me := p.me } := by
  unfold Psr.write
  rw [extractLsb'_toWord_rc, extractLsb'_toWord_il]
  simp (disch := decide) only [getLsbD_toWord, Psr.bitAt, if_true]

/-- In the handler the two words of the entry read back the saved address and PSR. -/
theorem physRead_entered {s : State} {level : Option (BitVec 4)} {nmi : Bool} {ret p1 p2 p3 : Word}
    (h12 : 4 ≤ (p1 - p2).toNat) (h21 : 4 ≤ (p2 - p1).toNat) :
    (entered s level nmi ret p1 p2 p3).physRead .word p1 = ret ∧
      (entered s level nmi ret p1 p2 p3).physRead .word p2 = s.psr.toWord := by
  have hmem : (entered s level nmi ret p1 p2 p3).mem = ((s.physWrite .word p1 ret).physWrite .word p2 s.psr.toWord).mem := rfl
  rw [physRead_congr hmem rfl, physRead_congr hmem rfl, physRead_physWrite_apart _ _ h12 h21]
  exact ⟨physRead_physWrite s .word p1 ret, physRead_physWrite (s.physWrite .word p1 ret) .word p2 s.psr.toWord⟩

/-- Settles O55. -/
theorem returnRestoresContext : Obligations.ReturnRestoresContext :=
  fun s n level nmi ret restart p1 p2 p3 hme hde hmaps hret h12 h21 => by
  dsimp only
  intro hread1 hread2 hrepeat hloop
  obtain ⟨hret1, hpsr2⟩ := physRead_entered (s := s) (level := level) (nmi := nmi) (ret := ret) (p3 := p3) h12 h21
  have hexec := returnFromTrap (entered s level nmi ret p1 p2 p3) p1 p2 (free_of_plain rfl rfl rfl rfl _) hread1 hread2
  have hrights : (entered s level nmi ret p1 p2 p3).psr.supervisorRights = true := rfl
  have hrestored : (entered s level nmi ret p1 p2 p3).psr.write true s.psr.toWord = s.psr := write_toWord ..
  rw [hret1, hpsr2, hret, State.writePsr, hrights, hrestored, complete_plain hrepeat hloop] at hexec
  refine ⟨_, trap_eq_entered hmaps .., hexec, rfl, rfl, ?_, rfl, rfl, rfl, rfl, rfl, rfl, rfl, rfl, rfl, rfl, rfl, ?_⟩
  · exact (BitVec.sub_add_cancel s.ssp 8)
  · exact fun q h1 h2 => byteAt_entered (level := level) (nmi := nmi) (ret := ret) (p3 := p3) h1 h2

/-! ## Debug and MMU exceptions (R590 to R597) -/

theorem misplaced_of_slot {s : State} {i : Instr} (hdelay : s.delay ≠ none) (hi : (placement i).slot = false) :
    s.misplaced i = some .prohibitedDelaySlot := by
  unfold State.misplaced
  dsimp only
  rw [hi, if_pos (by simpa [Option.ne_none_iff_isSome] using hdelay)]

/-- An instruction that `ext cond` may not skip is free wherever it may stand. -/
theorem free_of_unconditional {s : State} {i : Instr} (h : s.misplaced i = none) (hi : (placement i).conditional = false) :
    s.Free i := ⟨h, by rw [State.skips, hi]; rfl⟩

theorem byteAt_two_words (s : State) {a q : Word} (v w : Word) (h : 8 ≤ (q - a).toNat) :
    ((s.physWrite .word a v).physWrite .word (a + 4) w).byteAt q = s.byteAt q := by
  have hword : Size.word.bytes.toNat = 4 := rfl
  refine (byteAt_physWrite_of_outside _ .word w ?_).trans (byteAt_physWrite_of_outside s .word v ?_) <;> rw [hword]
  · rw [BitVec.toNat_sub] at h ⊢
    rw [BitVec.toNat_add, show (4 : Word).toNat = 4 from rfl]
    omega
  · omega

/-- Settles O56. -/
theorem debugException : Obligations.DebugException := by
  refine ⟨by decide, by decide, fun s => ⟨fun hdelay => ⟨?_, ?_⟩, fun hplace hme hde => ⟨?_, fun q hq => ?_⟩, fun hplace h => ?_,
    fun hplace => ?_⟩⟩
  · exact exec_misplaced (misplaced_of_slot hdelay rfl)
  · exact exec_misplaced (misplaced_of_slot hdelay rfl)
  · apply exec_of_issue (hfree := free_of_unconditional hplace rfl)
    · rfl
    · rw [hme, hde, if_neg (by decide), debugEntered_eq]
      rfl
  · have hadd : debugBase s + 12 = debugBase s + 8 + 4 := by rw [BitVec.add_assoc]; rfl
    have hbyte := byteAt_two_words s (s.pc + 2) (s.reg 0) hq
    rw [← hadd] at hbyte
    exact hbyte
  · apply exec_of_issue (hfree := free_of_unconditional hplace rfl)
    · rfl
    · exact if_pos (by simpa using h)
  · apply exec_of_issue (hfree := free_of_unconditional hplace rfl)
    · rfl
    · rw [even_eq]
      rfl

/-- Settles O57. -/
theorem mmuException : Obligations.MmuException := by
  refine ⟨by decide, fun s => ⟨fun hdelay => ?_, fun hplace => ?_, fun ret hde => ⟨mmuException_eq hde ret, fun q hq => ?_⟩,
    fun ret hde => mmuException_fault hde ret⟩⟩
  · exact exec_misplaced (misplaced_of_slot hdelay rfl)
  · apply exec_of_issue (hfree := free_of_unconditional hplace rfl)
    · rfl
    · rw [even_eq]
      rfl
  · exact byteAt_two_words s (a := 0x18#32) ret (s.reg 0) hq

end Sys2Proof.Machine
end

section
/-! The instructions that run in parts, with a boundary between two of them: successive pushes and pops, repeated
accumulations (47_pushpop.md R375 to R380, 44_mac.md R313, 60_exceptions.md R568). -/

namespace Sys2Proof.Machine
open Sys2Proof.Spec

/-! ## Parts and boundaries -/

/-- An instruction in parts: the state an access that fails in part j aborts from, what a boundary before part j records, the
parts, and the end. -/
structure Parts where
  before : Nat → State → State
  mark : Nat → State → State
  part : Nat → State → Except Abort State
  finish : State → Result

/-- Part j and so many after it. -/
def Parts.run (q : Parts) : Nat → Nat → State → Result
  | 0, j, s => (q.before j s).orAbort (q.part j s) q.finish
  | left + 1, j, s => (q.before j s).orAbort (q.part j s) fun t => t.innerBoundary (q.mark (j + 1)) (q.run left (j + 1))

/-- The state after so many parts from part j on, if none fails. -/
def Parts.after (q : Parts) : Nat → Nat → State → Option State
  | 0, _, s => some s
  | k + 1, j, s => (q.part j s).toOption.bind (q.after k (j + 1))

/-- The state with other inputs, and with other values of PM and RC, of which no part takes notice. -/
def State.tagged (s : State) (l : List HostInput) (pm : Bool) (rc : BitVec 4) : State :=
  { s with inputs := l, psr := { s.psr with pm := pm, rc := rc } }

/-- What the parts of every such instruction leave alone. -/
structure Parts.Lawful (q : Parts) : Prop where
  blind : ∀ j s l pm rc, q.part j (s.tagged l pm rc) = (q.part j s).map fun u => u.tagged l pm rc
  keeps : ∀ {j s u}, q.part j s = .ok u →
    u.ext = s.ext ∧ u.delay = s.delay ∧ u.pc = s.pc ∧ u.psr.me = s.psr.me ∧ u.psr.de = s.psr.de
  mark_ext : ∀ j s, (q.mark j s).ext = s.ext

/-- The first of several parts and those behind it. -/
theorem Parts.after_cons {q : Parts} {k j : Nat} {s u : State} (h : q.after (k + 1) j s = some u) :
    ∃ t, q.part j s = .ok t ∧ q.after k (j + 1) t = some u := by
  rw [Parts.after] at h
  cases hp : q.part j s with
  | error e => rw [hp] at h; cases h
  | ok t =>
    rw [hp] at h
    exact ⟨t, rfl, h⟩

/-- What every part keeps, the parts together keep. -/
theorem Parts.after_rel {q : Parts} {R : State → State → Prop} (hrefl : ∀ s, R s s) (htrans : ∀ {s t u}, R s t → R t u → R s u)
    (hpart : ∀ {j s t}, q.part j s = .ok t → R s t) : ∀ {k j : Nat} {s u : State}, q.after k j s = some u → R s u
  | 0, _, s, _, h => Option.some.inj h ▸ hrefl s
  | _ + 1, _, _, _, h => by
    obtain ⟨t, hp, h⟩ := Parts.after_cons h
    exact htrans (hpart hp) (Parts.after_rel hrefl htrans hpart h)

theorem tagged_self (s : State) : s.tagged s.inputs s.psr.pm s.psr.rc = s := rfl

theorem waited_eq_tagged (s : State) (k : Nat) : waited s k = s.tagged (s.inputs.drop k) s.psr.pm s.psr.rc := rfl

theorem waited_waited (s : State) (k m : Nat) : waited (waited s k) m = waited s (k + m) := by
  simp [waited, List.drop_drop]

theorem waited_nil {s : State} (h : s.inputs = []) (k : Nat) : waited s k = s := by
  have hs : waited s k = { s with inputs := [] } := by rw [waited, h, List.drop_nil]
  rw [hs, ← h]

/-- A boundary at which the host asserts nothing the core would take. -/
theorem innerBoundary_undisturbed {s : State} {mark : State → State} (h : Undisturbed s 1) (hmark : ∀ t, (mark t).ext = t.ext)
    (k : State → Result) : s.innerBoundary mark k = k (waited s 1) := by
  cases hin : s.inputs with
  | nil => rw [innerBoundary_quiet hin, waited_nil hin]
  | cons input rest =>
    have hpoll := poll_cons hin
    obtain ⟨hreset, hquiet⟩ := h input (by rw [hin]; exact List.mem_cons_self ..)
    have hwaited : waited s 1 = { s with inputs := rest } := by rw [waited, hin]; rfl
    rw [innerBoundary_none, hpoll, hwaited]
    · rw [hpoll]
      exact hreset
    · rw [hpoll]
      by_cases hcount : s.ext.count = 0
      · rw [hquiet hcount]
        exact accept_none ..
      · refine accept_pending (.inl ?_) _ _
        rw [hmark]
        exact hcount

theorem undisturbed_congr {s t : State} {k : Nat} (h : Undisturbed s k) (hin : t.inputs = s.inputs) (hext : t.ext = s.ext) :
    Undisturbed t k := by
  intro input hmem
  rw [hin] at hmem
  rw [hext]
  exact h input hmem

theorem undisturbed_le {s : State} {k m : Nat} (h : Undisturbed s k) (hm : m ≤ k) : Undisturbed s m := fun input hmem =>
  h input (List.take_subset_take_left _ hm hmem)

theorem undisturbed_waited {s : State} {k : Nat} (h : Undisturbed s (k + 1)) : Undisturbed (waited s 1) k := fun input hmem =>
  h input (by
    rw [Nat.add_comm, List.take_add]
    exact List.mem_append_right _ hmem)

section

variable {q : Parts} (hq : q.Lawful)
include hq

theorem Parts.Lawful.part_tagged {j : Nat} {s u : State} (h : q.part j s = .ok u) (l : List HostInput) (pm : Bool)
    (rc : BitVec 4) : q.part j (s.tagged l pm rc) = .ok (u.tagged l pm rc) := by
  rw [hq.blind, h]
  rfl

theorem Parts.Lawful.inputs {j : Nat} {s u : State} (h : q.part j s = .ok u) : u.inputs = s.inputs := by
  have ht := hq.part_tagged h s.inputs s.psr.pm s.psr.rc
  rw [tagged_self, h] at ht
  rw [Except.ok.inj ht]
  rfl

theorem Parts.Lawful.after_tagged (l : List HostInput) (pm : Bool) (rc : BitVec 4) : ∀ (k j : Nat) (s u : State),
    q.after k j s = some u → q.after k j (s.tagged l pm rc) = some (u.tagged l pm rc)
  | 0, _, s, u, h => by
    obtain rfl := Option.some.inj h
    rfl
  | k + 1, j, s, u, h => by
    obtain ⟨t, hp, h⟩ := Parts.after_cons h
    rw [Parts.after, hq.part_tagged hp]
    exact Parts.Lawful.after_tagged l pm rc k (j + 1) t u h

/-- The parts keep what they take no notice of. -/
theorem Parts.Lawful.after_tags {k j : Nat} {s u : State} (h : q.after k j s = some u) :
    u.inputs = s.inputs ∧ u.psr.pm = s.psr.pm ∧ u.psr.rc = s.psr.rc := by
  have ht := hq.after_tagged s.inputs s.psr.pm s.psr.rc k j s u h
  rw [tagged_self, h] at ht
  rw [Option.some.inj ht]
  exact ⟨rfl, rfl, rfl⟩

theorem Parts.Lawful.after_waited {k j : Nat} {s u : State} (h : q.after k j s = some u) (m : Nat) :
    q.after k j (waited s m) = some (waited u m) := by
  obtain ⟨inputs, pm, rc⟩ := hq.after_tags h
  rw [waited_eq_tagged, waited_eq_tagged, inputs, pm, rc]
  exact hq.after_tagged _ _ _ k j s u h

theorem Parts.Lawful.after_keeps {k j : Nat} {s u : State} (h : q.after k j s = some u) :
    u.ext = s.ext ∧ u.delay = s.delay ∧ u.pc = s.pc ∧ u.psr.me = s.psr.me ∧ u.psr.de = s.psr.de := by
  refine Parts.after_rel (R := fun s u => u.ext = s.ext ∧ u.delay = s.delay ∧ u.pc = s.pc ∧ u.psr.me = s.psr.me ∧
    u.psr.de = s.psr.de) (fun _ => ⟨rfl, rfl, rfl, rfl, rfl⟩) ?_ hq.keeps h
  rintro s t u ⟨ext, delay, pc, me, de⟩ ⟨ext', delay', pc', me', de'⟩
  exact ⟨ext'.trans ext, delay'.trans delay, pc'.trans pc, me'.trans me, de'.trans de⟩

omit hq in
theorem Parts.after_add (q : Parts) : ∀ (k m j : Nat) (s : State), q.after (k + m) j s = (q.after k j s).bind (q.after m (j + k))
  | 0, m, j, s => by rw [Nat.zero_add]; rfl
  | k + 1, m, j, s => by
    rw [Nat.add_right_comm, Parts.after, Parts.after]
    cases q.part j s with
    | error e => rfl
    | ok t =>
      rw [show j + (k + 1) = j + 1 + k by omega]
      exact Parts.after_add q k m (j + 1) t

/-- A part that is done, with parts after it: at the boundary the host asserts nothing. -/
theorem Parts.Lawful.run_part {left j : Nat} {s t : State} (h : q.part j s = .ok t) (hu : Undisturbed s 1) :
    q.run (left + 1) j s = q.run left (j + 1) (waited t 1) := by
  rw [Parts.run, h, orAbort_ok]
  exact innerBoundary_undisturbed (undisturbed_congr hu (hq.inputs h) (hq.keeps h).1) (hq.mark_ext _) _

/-- After k parts and the boundaries behind them. -/
theorem Parts.Lawful.run_after : ∀ (k left j : Nat) (s u : State), q.after k j s = some u → Undisturbed s k →
    q.run (left + k) j s = q.run left (j + k) (waited u k)
  | 0, left, j, s, u, h, _ => by
    obtain rfl := Option.some.inj h
    rfl
  | k + 1, left, j, s, u, h, hu => by
    obtain ⟨t, hp, h⟩ := Parts.after_cons h
    have hnext : q.after k (j + 1) (waited t 1) = some (waited u 1) := hq.after_waited h 1
    have hquiet : Undisturbed (waited t 1) k := undisturbed_waited (undisturbed_congr hu (hq.inputs hp) (hq.keeps hp).1)
    rw [show left + (k + 1) = left + k + 1 by omega, hq.run_part hp (undisturbed_le hu (by omega)),
      Parts.Lawful.run_after k left (j + 1) _ _ hnext hquiet, waited_waited]
    rw [show j + 1 + k = j + (k + 1) by omega, show 1 + k = k + 1 by omega]

omit hq in
theorem Parts.after_succ {k j : Nat} {s u : State} (h : q.after (k + 1) j s = some u) :
    ∃ t, q.after k j s = some t ∧ q.part (j + k) t = .ok u := by
  rw [Parts.after_add] at h
  cases hk : q.after k j s with
  | none => rw [hk] at h; cases h
  | some t =>
    rw [hk, Option.bind_some] at h
    obtain ⟨w, hp, h⟩ := Parts.after_cons h
    exact ⟨t, rfl, hp.trans (congrArg Except.ok (Option.some.inj h))⟩

theorem Parts.Lawful.part_waited {j : Nat} {s u : State} (h : q.part j s = .ok u) (k : Nat) :
    q.part j (waited s k) = .ok (waited u k) := by
  obtain ⟨inputs, pm, rc⟩ := hq.after_tags (k := 1) (j := j) (s := s) (u := u) (by rw [Parts.after, h]; rfl)
  rw [waited_eq_tagged, waited_eq_tagged, inputs, pm, rc]
  exact hq.part_tagged h _ _ _

/-- All parts done: the end. -/
theorem Parts.Lawful.run_all {left j : Nat} {s u : State} (h : q.after (left + 1) j s = some u) (hu : Undisturbed s left) :
    q.run left j s = q.finish (waited u left) := by
  obtain ⟨t, ht, hp⟩ := Parts.after_succ h
  have hrun := hq.run_after left 0 j s t ht hu
  rw [Nat.zero_add] at hrun
  rw [hrun, Parts.run, hq.part_waited hp]
  rfl

/-- Part k fails after k parts. -/
theorem Parts.Lawful.run_fails {left k j : Nat} {s u : State} {e : Abort} (h : q.after k j s = some u) (hk : k ≤ left)
    (hu : Undisturbed s k) (he : q.part (j + k) u = .error e) :
    q.run left j s = (q.before (j + k) (waited u k)).abort e := by
  have hfail : q.part (j + k) (waited u k) = .error e := by
    rw [waited_eq_tagged, hq.blind, he]
    rfl
  have hrun := hq.run_after k (left - k) j s u h hu
  rw [Nat.sub_add_cancel hk] at hrun
  rw [hrun]
  cases left - k with
  | zero => rw [Parts.run, hfail]; rfl
  | succ m => rw [Parts.run, hfail]; rfl

/-- At the boundary behind part k the core takes an event. -/
theorem Parts.Lawful.run_event {left k j : Nat} {s u : State} {r : Result} {input : HostInput} {rest : List HostInput}
    (h : q.after (k + 1) j s = some u) (hk : k < left) (hu : Undisturbed s k) (hin : s.inputs.drop k = input :: rest)
    (hreset : input.reset = none) (hr : (q.mark (j + k + 1) { u with inputs := rest }).accept input u.pc = some r) :
    q.run left j s = r := by
  obtain ⟨t, ht, hp⟩ := Parts.after_succ h
  have hrun := hq.run_after k (left - k) j s t ht hu
  have hpoll : (waited u k).poll = (input, { u with inputs := rest }) := by
    have hinputs : (waited u k).inputs = input :: rest := by rw [← hin, ← (hq.after_tags h).1]; rfl
    exact poll_cons hinputs
  rw [Nat.sub_add_cancel (Nat.le_of_lt hk)] at hrun
  rw [hrun, show left - k = left - k - 1 + 1 by omega, Parts.run, hq.part_waited hp, orAbort_ok]
  simp only [State.innerBoundary, hpoll, hreset, hr]

end

end Sys2Proof.Machine
end

section
/-! Successive pushes and pops as instructions in parts (47_pushpop.md R375 to R380). -/

namespace Sys2Proof.Machine
open Sys2Proof.Spec

/-! ## The parts -/

/-- What a part does before its access: `pushs` of a number from 10 on uses up a free value. -/
def prepared (i : Instr) (m : Nat) (s : State) : State :=
  match i with
  | .pushs _ => (specialWord s m).2
  | _ => s

/-- The part of a successive push or pop for number m. -/
def onePart (i : Instr) (m : Nat) (s : State) : Except Abort State :=
  match i with
  | .pushn _ => s.pushWord (s.reg (BitVec.ofNat 4 m))
  | .popn _ => s.popWord.map fun vt => vt.2.setReg (BitVec.ofNat 4 m) vt.1
  | .pushs _ => (specialWord s m).2.pushWord (specialWord s m).1
  | .pops _ => s.popWord.map fun vt => restored vt.2 m vt.1
  | _ => .ok s

/-- A successive push or pop from number n on. -/
def sequenceParts (i : Instr) (n : Nat) : Parts where
  before j s := State.markRc (BitVec.ofNat 4 (partNumber i n j)) (prepared i (partNumber i n j) s)
  mark j := State.markRc (BitVec.ofNat 4 (partNumber i n j))
  part j := onePart i (partNumber i n j)
  finish := State.endSequence

theorem specialWord_tagged (s : State) (m : Nat) (l : List HostInput) (pm : Bool) (rc : BitVec 4) :
    specialWord (s.tagged l pm rc) m = ((specialWord s m).1, (specialWord s m).2.tagged l pm rc) := by
  unfold specialWord
  split <;> rfl

theorem restored_tagged (s : State) (m : Nat) (v : Word) (l : List HostInput) (pm : Bool) (rc : BitVec 4) :
    restored (s.tagged l pm rc) m v = (restored s m v).tagged l pm rc := by
  unfold restored
  split
  iterate 6 rfl
  · show (if s.psr.sv = false ∨ s.psr.me = true then _ else _) = State.tagged (if s.psr.sv = false ∨ s.psr.me = true then _ else _) l pm rc
    split <;> rfl
  · rfl
  · rfl

theorem setSp_tagged (s : State) (v : Word) (l : List HostInput) (pm : Bool) (rc : BitVec 4) :
    (s.tagged l pm rc).setSp v = (s.setSp v).tagged l pm rc := by
  show (if s.psr.sv then _ else _) = State.tagged (if s.psr.sv then _ else _) l pm rc
  split <;> rfl

theorem pushWord_tagged (s : State) (v : Word) (l : List HostInput) (pm : Bool) (rc : BitVec 4) :
    (s.tagged l pm rc).pushWord v = (s.pushWord v).map fun u => u.tagged l pm rc := by
  cases h : s.translate .write (s.sp - 4) with
  | none =>
    rw [pushWord_miss v h, pushWord_miss (s := s.tagged l pm rc) v h]
    rfl
  | some p =>
    rw [pushWord_eq v h, pushWord_eq (s := s.tagged l pm rc) v h]
    exact congrArg Except.ok (setSp_tagged ((s.noteStore .word p).physWrite .word p v) _ l pm rc)

theorem popWord_tagged (s : State) (l : List HostInput) (pm : Bool) (rc : BitVec 4) :
    (s.tagged l pm rc).popWord = s.popWord.map fun vt => (vt.1, vt.2.tagged l pm rc) := by
  cases h : s.translate .read s.sp with
  | none =>
    rw [popWord_miss h, popWord_miss (s := s.tagged l pm rc) h]
    rfl
  | some p =>
    rw [popWord_eq h, popWord_eq (s := s.tagged l pm rc) h]
    exact congrArg (fun t => Except.ok (s.physRead .word p, t)) (setSp_tagged ..)

theorem onePart_tagged (i : Instr) (m : Nat) (s : State) (l : List HostInput) (pm : Bool) (rc : BitVec 4) :
    onePart i m (s.tagged l pm rc) = (onePart i m s).map fun u => u.tagged l pm rc := by
  unfold onePart
  split
  · exact pushWord_tagged ..
  · rw [popWord_tagged]
    cases s.popWord <;> rfl
  · rw [specialWord_tagged]
    exact pushWord_tagged ..
  · rw [popWord_tagged]
    cases s.popWord with
    | error e => rfl
    | ok vt => exact congrArg Except.ok (restored_tagged ..)
  · rfl

theorem pushWord_ok {s u : State} {v : Word} (h : s.pushWord v = .ok u) :
    ∃ p, s.translate .write (s.sp - 4) = some p ∧ u = ((s.noteStore .word p).physWrite .word p v).setSp (s.sp - 4) := by
  cases ht : s.translate .write (s.sp - 4) with
  | none => rw [pushWord_miss v ht] at h; cases h
  | some p =>
    rw [pushWord_eq v ht] at h
    exact ⟨p, rfl, (Except.ok.inj h).symm⟩

theorem popWord_ok {s u : State} {v : Word} (h : s.popWord = .ok (v, u)) :
    ∃ p, s.translate .read s.sp = some p ∧ v = s.physRead .word p ∧ u = s.setSp (s.sp + 4) := by
  cases ht : s.translate .read s.sp with
  | none => rw [popWord_miss ht] at h; cases h
  | some p =>
    rw [popWord_eq ht] at h
    obtain ⟨hv, hu⟩ := Prod.mk.inj (Except.ok.inj h)
    exact ⟨p, rfl, hv.symm, hu.symm⟩

/-- What no push or pop changes. -/
def State.frame (s : State) :=
  (s.ext, s.delay, s.pc, s.psr, s.inputs, s.params, s.dsWindow, s.macWindow)

theorem frame_setSp (s : State) (v : Word) : (s.setSp v).frame = s.frame := by
  unfold State.setSp
  split <;> rfl

theorem frame_specialWord (s : State) (m : Nat) : (specialWord s m).2.frame = s.frame := by
  unfold specialWord
  split <;> rfl

theorem frame_restored (s : State) (m : Nat) (v : Word) : (restored s m v).frame = s.frame := by
  unfold restored
  split
  iterate 6 rfl
  · split <;> rfl
  · rfl
  · rfl

theorem frame_pushWord {s u : State} {v : Word} (h : s.pushWord v = .ok u) : u.frame = s.frame := by
  obtain ⟨p, -, rfl⟩ := pushWord_ok h
  exact frame_setSp ((s.noteStore .word p).physWrite .word p v) _

theorem frame_popWord {s u : State} {v : Word} (h : s.popWord = .ok (v, u)) : u.frame = s.frame := by
  obtain ⟨p, -, -, rfl⟩ := popWord_ok h
  exact frame_setSp ..

/-- A pop with what follows it gives what it gives to the word popped. -/
theorem map_popWord_ok {s u : State} {f : Word × State → State} (h : s.popWord.map f = .ok u) :
    ∃ v t, s.popWord = .ok (v, t) ∧ u = f (v, t) := by
  cases hp : s.popWord with
  | error e => rw [hp] at h; cases h
  | ok vt =>
    rw [hp] at h
    exact ⟨vt.1, vt.2, rfl, (Except.ok.inj h).symm⟩

theorem frame_onePart {i : Instr} {m : Nat} {s u : State} (h : onePart i m s = .ok u) : u.frame = s.frame := by
  unfold onePart at h
  split at h
  · exact frame_pushWord h
  · obtain ⟨v, t, hp, rfl⟩ := map_popWord_ok h
    exact (show (t.setReg _ v).frame = t.frame from rfl).trans (frame_popWord hp)
  · exact (frame_pushWord h).trans (frame_specialWord ..)
  · obtain ⟨v, t, hp, rfl⟩ := map_popWord_ok h
    exact (frame_restored ..).trans (frame_popWord hp)
  · exact congrArg State.frame (Except.ok.inj h).symm

theorem sequenceParts_lawful (i : Instr) (n : Nat) : (sequenceParts i n).Lawful where
  blind j s l pm rc := onePart_tagged i _ s l pm rc
  keeps h := by
    have hframe := frame_onePart h
    simp only [State.frame, Prod.mk.injEq] at hframe
    obtain ⟨ext, delay, pc, psr, -⟩ := hframe
    exact ⟨ext, delay, pc, congrArg Psr.me psr, congrArg Psr.de psr⟩
  mark_ext _ _ := rfl

/-! ## The model's sequences are these parts -/

theorem orAbort_map {α β : Type} (s : State) (x : Except Abort α) (f : α → β) (k : β → Result) :
    s.orAbort (x.map f) k = s.orAbort x fun a => k (f a) := by
  cases x <;> rfl

theorem pushDown_eq_run (r : Reg) (n : Nat) : ∀ (m j : Nat) (s : State), n = j + m →
    pushDown m s = (sequenceParts (.pushn r) n).run m j s
  | 0, j, s, h => by
    have hnum : partNumber (.pushn r) n j = 0 := show n - j = 0 by omega
    unfold Parts.run
    dsimp only [sequenceParts]
    rw [hnum]
    rfl
  | m + 1, j, s, h => by
    have hnum : partNumber (.pushn r) n j = m + 1 := show n - j = m + 1 by omega
    have hnext : partNumber (.pushn r) n (j + 1) = m := show n - (j + 1) = m by omega
    have ih : (sequenceParts (.pushn r) n).run m (j + 1) = pushDown m := funext fun t =>
      (pushDown_eq_run r n m (j + 1) t (by omega)).symm
    unfold Parts.run
    rw [ih]
    dsimp only [sequenceParts]
    rw [hnum, hnext]
    rfl

theorem popUp_eq_run (r : Reg) (n : Nat) : ∀ (left j : Nat) (s : State),
    popUp left (BitVec.ofNat 4 (n + j)) s = (sequenceParts (.popn r) n).run left j s
  | 0, j, s => by
    unfold Parts.run
    exact (orAbort_map ..).symm
  | left + 1, j, s => by
    have hnum : (BitVec.ofNat 4 (n + j) + 1 : Reg) = BitVec.ofNat 4 (n + (j + 1)) := by
      rw [← Nat.add_assoc, BitVec.ofNat_add (x := n + j) (y := 1)]
      rfl
    have ih : (sequenceParts (.popn r) n).run left (j + 1) = popUp left (BitVec.ofNat 4 (n + (j + 1))) := funext fun t =>
      (popUp_eq_run r n left (j + 1) t).symm
    unfold Parts.run popUp
    rw [ih, hnum]
    dsimp only [sequenceParts, onePart, partNumber]
    rw [orAbort_map]
    rfl

theorem pushsValue_eq (s : State) {m : Nat} (h2 : 2 ≤ m) (h15 : m ≤ 15) : s.pushsValue (BitVec.ofNat 4 m) = specialWord s m := by
  match m, h2, h15 with
  | 0, h, _ | 1, h, _ => exact absurd h (by decide)
  | 2, _, _ | 3, _, _ | 4, _, _ | 5, _, _ | 6, _, _ | 7, _, _ | 8, _, _ | 9, _, _ | 10, _, _ | 11, _, _ | 12, _, _ | 13, _, _ | 14, _, _ | 15, _, _ => rfl
  | _ + 16, _, h => exact absurd h (by omega)

theorem pushsDown_eq_run (r : SReg) (n : Nat) (hn : n ≤ 15) : ∀ (m j : Nat) (s : State), n = j + m + 2 →
    pushsDown m s = (sequenceParts (.pushs r) n).run m j s
  | 0, j, s, h => by
    have hnum : partNumber (.pushs r) n j = 2 := show n - j = 2 by omega
    unfold Parts.run
    dsimp only [sequenceParts]
    rw [hnum]
    rfl
  | m + 1, j, s, h => by
    have hnum : partNumber (.pushs r) n j = m + 3 := show n - j = m + 3 by omega
    have hnext : partNumber (.pushs r) n (j + 1) = m + 2 := show n - (j + 1) = m + 2 by omega
    have ih : (sequenceParts (.pushs r) n).run m (j + 1) = pushsDown m := funext fun t =>
      (pushsDown_eq_run r n hn m (j + 1) t (by omega)).symm
    unfold Parts.run pushsDown
    rw [ih, pushsValue_eq s (by omega) (by omega)]
    dsimp only [sequenceParts]
    rw [hnum, hnext]
    rfl

theorem supervisorRights_iff (p : Psr) : p.supervisorRights = true ↔ p.sv = false ∨ p.me = true := by
  simp [Psr.supervisorRights]

theorem restoreSpecial_eq (s : State) (v : Word) {m : Nat} (h2 : 2 ≤ m) (h15 : m ≤ 15) :
    s.restoreSpecial (BitVec.ofNat 4 m) v = restored s m v := by
  match m, h2, h15 with
  | 0, h, _ | 1, h, _ => exact absurd h (by decide)
  | 2, _, _ | 3, _, _ | 4, _, _ | 5, _, _ | 6, _, _ | 7, _, _ | 9, _, _ | 10, _, _ | 11, _, _ | 12, _, _ | 13, _, _ | 14, _, _ | 15, _, _ => rfl
  | 8, _, _ => exact ite_congr (propext (supervisorRights_iff s.psr)) (fun _ => rfl) fun _ => rfl
  | _ + 16, _, h => exact absurd h (by omega)

theorem popsUp_eq_run (r : SReg) (n : Nat) : ∀ (left j : Nat) (s : State), 2 ≤ n + j → n + j + left ≤ 15 →
    popsUp left (BitVec.ofNat 4 (n + j)) s = (sequenceParts (.pops r) n).run left j s
  | 0, j, s, h2, h15 => by
    unfold Parts.run popsUp State.popOf
    simp only [restoreSpecial_eq _ _ h2 (show n + j ≤ 15 by omega)]
    exact (orAbort_map ..).symm
  | left + 1, j, s, h2, h15 => by
    have hnum : (BitVec.ofNat 4 (n + j) + 1 : Reg) = BitVec.ofNat 4 (n + (j + 1)) := by
      rw [← Nat.add_assoc, BitVec.ofNat_add (x := n + j) (y := 1)]
      rfl
    have ih : (sequenceParts (.pops r) n).run left (j + 1) = popsUp left (BitVec.ofNat 4 (n + (j + 1))) := funext fun t =>
      (popsUp_eq_run r n left (j + 1) t (by omega) (by omega)).symm
    unfold Parts.run popsUp State.popOf
    simp only [restoreSpecial_eq _ _ h2 (show n + j ≤ 15 by omega)]
    rw [ih, hnum]
    dsimp only [sequenceParts, onePart, partNumber]
    rw [orAbort_map]
    rfl

/-! ## The spec's sequences are these parts -/

theorem push1_eq (v : Word) (s : State) : push1 v s = (s.pushWord v).toOption := by
  unfold push1
  cases h : s.translate .write (s.sp - 4) with
  | none => rw [pushWord_miss v h]; rfl
  | some p => rw [pushWord_eq v h, Option.map_some, noted_eq]; rfl

theorem pop1_eq (s : State) (k : Word → State → Option State) :
    pop1 s k = s.popWord.toOption.bind fun vt => k vt.1 vt.2 := by
  unfold pop1
  cases h : s.translate .read s.sp with
  | none => rw [popWord_miss h]; rfl
  | some p => rw [popWord_eq h]; rfl

theorem gpr_pushWord {s u : State} {v : Word} (h : s.pushWord v = .ok u) : u.gpr = s.gpr := by
  obtain ⟨p, -, rfl⟩ := pushWord_ok h
  exact setSp_gpr ..

/-- The registers pushed are those before the first push, since pushes leave them alone. -/
theorem pushAll_eq_after (r : Reg) (n : Nat) (s : State) : ∀ (k j : Nat) (t : State), t.gpr = s.gpr →
    pushAll ((List.range' j k).map fun x => s.reg (BitVec.ofNat 4 (n - x))) t = (sequenceParts (.pushn r) n).after k j t
  | 0, _, _, _ => rfl
  | k + 1, j, t, h => by
    rw [List.range'_succ, List.map_cons, pushAll, Parts.after, push1_eq]
    have hpart : (sequenceParts (.pushn r) n).part j t = t.pushWord (s.reg (BitVec.ofNat 4 (n - j))) :=
      congrArg t.pushWord (reg_congr h _)
    rw [hpart]
    cases hp : t.pushWord (s.reg (BitVec.ofNat 4 (n - j))) with
    | error e => rfl
    | ok u => exact pushAll_eq_after r n s k (j + 1) u ((gpr_pushWord hp).trans h)

theorem popRegs_eq_after (r : Reg) (n : Nat) : ∀ (k j : Nat) (s : State),
    popRegs k (n + j) s = (sequenceParts (.popn r) n).after k j s
  | 0, _, _ => rfl
  | k + 1, j, s => by
    rw [popRegs, pop1_eq, Parts.after]
    dsimp only [sequenceParts, onePart, partNumber]
    cases s.popWord with
    | error e => rfl
    | ok vt => exact popRegs_eq_after r n k (j + 1) _

theorem pushSpecials_eq_after (r : SReg) (n : Nat) : ∀ (k j : Nat) (s : State),
    pushSpecials k (n - j) s = (sequenceParts (.pushs r) n).after k j s
  | 0, _, _ => rfl
  | k + 1, j, s => by
    rw [pushSpecials, push1_eq, Parts.after]
    dsimp only [sequenceParts, onePart, partNumber]
    cases (specialWord s (n - j)).2.pushWord (specialWord s (n - j)).1 with
    | error e => rfl
    | ok u => exact pushSpecials_eq_after r n k (j + 1) u

theorem popSpecials_eq_after (r : SReg) (n : Nat) : ∀ (k j : Nat) (s : State),
    popSpecials k (n + j) s = (sequenceParts (.pops r) n).after k j s
  | 0, _, _ => rfl
  | k + 1, j, s => by
    rw [popSpecials, pop1_eq, Parts.after]
    dsimp only [sequenceParts, onePart, partNumber]
    cases s.popWord with
    | error e => rfl
    | ok vt => exact popSpecials_eq_after r n k (j + 1) _

/-- The successive pushes and pops. -/
def IsSequence (i : Instr) : Prop :=
  (∃ r, i = .pushn r) ∨ (∃ r, i = .popn r) ∨ (∃ r, i = .pushs r) ∨ ∃ r, i = .pops r

theorem partsDone_eq_after {i : Instr} (hi : IsSequence i) (n k : Nat) (s : State) :
    partsDone i n k s = (sequenceParts i n).after k 0 s := by
  obtain ⟨r, rfl⟩ | ⟨r, rfl⟩ | ⟨r, rfl⟩ | ⟨r, rfl⟩ := hi
  · rw [partsDone, List.range_eq_range']
    exact pushAll_eq_after r n s k 0 s rfl
  · exact popRegs_eq_after r n k 0 s
  · exact pushSpecials_eq_after r n k 0 s
  · exact popSpecials_eq_after r n k 0 s

theorem isSequence_of_count {i : Instr} {s : State} {n count : Nat} (h : Spec.sequence s i = (n, count)) (hpos : 0 < count) :
    IsSequence i := by
  cases i
  case pushn r => exact .inl ⟨r, rfl⟩
  case popn r => exact .inr (.inl ⟨r, rfl⟩)
  case pushs r => exact .inr (.inr (.inl ⟨r, rfl⟩))
  case pops r => exact .inr (.inr (.inr ⟨r, rfl⟩))
  all_goals
    obtain ⟨-, rfl⟩ := Prod.mk.inj h
    exact absurd hpos (Nat.lt_irrefl 0)

theorem toNat_sub_reg {r n : Reg} (h : n.toNat ≤ r.toNat) : (r - n).toNat = r.toNat - n.toNat :=
  BitVec.toNat_sub_of_le (BitVec.le_def.mpr h)

theorem ofNat_toNat_reg (n : Reg) : BitVec.ofNat 4 (n.toNat + 0) = n := by
  rw [Nat.add_zero, BitVec.ofNat_toNat, BitVec.setWidth_eq]

theorem ne_of_two_le {n : Reg} (h : 2 ≤ n.toNat) : ¬ (n = 0#4 ∨ n = 1#4) := by
  rintro (rfl | rfl)
  · exact absurd h (by decide)
  · exact absurd h (by decide)

theorem macclrHazard_of_closed {s : State} (h : s.macWindow = 0) (n : SReg) : s.macclrHazard n = false := by
  rw [State.macclrHazard, h]
  rfl

/-- A successive push or pop runs its parts from its first number on, with PM set. -/
theorem exec_sequence {i : Instr} {s : State} {n count : Nat} (hfree : s.Free i) (hstart : MayStart i s)
    (h : Spec.sequence s i = (n, count)) (hpos : 0 < count) :
    exec i s = (sequenceParts i n).run (count - 1) 0 (s.setPm true) := by
  obtain ⟨r, rfl⟩ | ⟨r, rfl⟩ | ⟨r, rfl⟩ | ⟨r, rfl⟩ := isSequence_of_count h hpos
  all_goals
    dsimp only [Spec.sequence] at h
    obtain ⟨hn, hcount⟩ := Prod.mk.inj h
  · apply exec_of_issue (hfree := hfree)
    · rfl
    · dsimp only
      generalize (if s.psr.pm = true then s.psr.rc else r) = first at *
      rw [show count - 1 = first.toNat by omega]
      exact pushDown_eq_run r n first.toNat 0 _ (by omega)
  · apply exec_of_issue (hfree := hfree)
    · rfl
    · dsimp only
      have hzero : (if s.psr.pm = true then s.psr.rc else 0) = (if s.psr.pm = true then s.psr.rc else 0#4) := rfl
      rw [hzero] at hn hcount
      generalize (if s.psr.pm = true then s.psr.rc else 0#4) = first at *
      subst hn
      have hrun := popUp_eq_run r first.toNat (count - 1) 0 (s.setPm true)
      rw [ofNat_toNat_reg] at hrun
      rw [← hrun, toNat_sub_reg (by omega), show r.toNat - first.toNat = count - 1 by omega]
  · apply exec_of_issue (hfree := hfree)
    · rfl
    · dsimp only
      generalize (if s.psr.pm = true then s.psr.rc else r) = first at *
      have hlt := first.isLt
      have hne := ne_of_two_le (n := first) (by omega)
      rw [if_neg (by rw [macclrHazard_of_closed hstart]; decide), if_neg hne]
      rw [show first.toNat - 2 = count - 1 by omega]
      exact pushsDown_eq_run r n (by omega) (count - 1) 0 _ (by omega)
  · apply exec_of_issue (hfree := hfree)
    · rfl
    · dsimp only
      have htwo : (if s.psr.pm = true then s.psr.rc else 2) = (if s.psr.pm = true then s.psr.rc else 2#4) := rfl
      rw [htwo] at hn hcount
      have hlt := r.isLt
      have hloop : ¬ (((s.psr.lm || s.psr.rm) && decide (4 ≤ r.toNat)) = true) := by
        intro hc
        rw [Bool.and_eq_true, decide_eq_true_eq] at hc
        obtain ⟨hlm, hrm⟩ := hstart hc.2
        rw [hlm, hrm] at hc
        exact Bool.false_ne_true hc.1
      have hsingle : ¬ ((!s.psr.pm && decide (r = 0#4 ∨ r = 1#4)) = true) := by
        intro hc
        rw [Bool.and_eq_true, decide_eq_true_eq, Bool.not_eq_true'] at hc
        rw [hc.1, if_neg Bool.false_ne_true] at hn hcount
        have h2 : (2#4 : Reg).toNat = 2 := rfl
        rw [h2] at hn hcount
        exact ne_of_two_le (n := r) (by split at hcount <;> omega) hc.2
      rw [if_neg hloop, if_neg hsingle]
      generalize (if s.psr.pm = true then s.psr.rc else 2#4) = first at *
      subst hn
      have h2 : 2 ≤ first.toNat := by split at hcount <;> omega
      rw [if_neg (by omega)] at hcount
      have hrun := popsUp_eq_run r first.toNat (count - 1) 0 (s.setPm true) h2 (by omega)
      rw [ofNat_toNat_reg] at hrun
      rw [← hrun, toNat_sub_reg (by omega), show r.toNat - first.toNat = count - 1 by omega]

end Sys2Proof.Machine
end

section
/-! The successive and the single pushes and pops, completed (47_pushpop.md R375 to R380). -/

namespace Sys2Proof.Machine
open Sys2Proof.Spec

/-! ## Completed sequences -/

theorem Parts.Lawful.after_setPm {q : Parts} (hq : q.Lawful) {k j : Nat} {s u : State} (h : q.after k j s = some u) (b : Bool) :
    q.after k j (s.setPm b) = some (u.setPm b) := by
  obtain ⟨inputs, -, rc⟩ := hq.after_tags h
  have ht := hq.after_tagged s.inputs b s.psr.rc k j s u h
  rw [← inputs, ← rc] at ht
  rw [show s.setPm b = s.tagged s.inputs b s.psr.rc from rfl, ← inputs, ← rc]
  exact ht

/-- With nothing accepted between its parts a sequence ends with PM cleared. -/
theorem sequence_completes {i : Instr} {s u : State} {n count : Nat} (hstart : MayStart i s)
    (h : Spec.sequence s i = (n, count)) (hpos : 0 < count) (hu : Undisturbed s (count - 1))
    (hdone : partsDone i n count s = some u) : RunsTo i s ((waited u (count - 1)).setPm false) := fun hfree => by
  have hq := sequenceParts_lawful i n
  rw [partsDone_eq_after (isSequence_of_count h hpos)] at hdone
  have hpc := (hq.after_keeps hdone).2.2.1
  have hmarked := hq.after_setPm hdone true
  rw [show count = count - 1 + 1 by omega] at hmarked
  rw [exec_sequence hfree hstart h hpos, hq.run_all hmarked (undisturbed_congr hu rfl rfl), ← hpc]
  rfl

/-! ## What the sequences leave in memory -/

theorem mem_popPart {i : Instr} (hi : (∃ r, i = .popn r) ∨ ∃ r, i = .pops r) {m : Nat} {s u : State} (h : onePart i m s = .ok u) :
    u.mem = s.mem := by
  obtain ⟨r, rfl⟩ | ⟨r, rfl⟩ := hi
  · obtain ⟨v, t, hp, rfl⟩ := map_popWord_ok h
    obtain ⟨p, -, -, rfl⟩ := popWord_ok hp
    exact setSp_mem ..
  · obtain ⟨v, t, hp, rfl⟩ := map_popWord_ok h
    obtain ⟨p, -, -, rfl⟩ := popWord_ok hp
    have hrestored : (restored (s.setSp (s.sp + 4)) m v).mem = (s.setSp (s.sp + 4)).mem := by
      unfold restored
      split
      iterate 6 rfl
      · split <;> rfl
      · rfl
      · rfl
    exact hrestored.trans (setSp_mem ..)

theorem mem_pops {i : Instr} (hi : (∃ r, i = .popn r) ∨ ∃ r, i = .pops r) {n k j : Nat} {s u : State}
    (h : (sequenceParts i n).after k j s = some u) : u.mem = s.mem :=
  Parts.after_rel (R := fun s u => u.mem = s.mem) (fun _ => rfl) (fun h h' => h'.trans h) (mem_popPart hi) h

theorem translate_of_frame {s t : State} (h : t.frame = s.frame) (k : AccessKind) (a : Word) :
    t.translate k a = s.translate k a := by
  simp only [State.frame, Prod.mk.injEq] at h
  obtain ⟨-, -, -, psr, -, params, -⟩ := h
  exact translate_congr (by rw [psr]) (by rw [psr]) params k a

/-- What a push does to the stack pointer and, outside its word, to memory. -/
theorem pushWord_stack {t w : State} {v : Word} (h : t.pushWord v = .ok w) :
    ∃ p, t.translate .write (t.sp - 4) = some p ∧ w.sp = wordAddress (t.sp - 4) ∧
      ∀ q, 4 ≤ (q - p).toNat → w.byteAt q = t.byteAt q := by
  obtain ⟨p, hmap, rfl⟩ := pushWord_ok h
  have hsp : wordAddress (t.sp - 4) = (((t.noteStore .word p).physWrite .word p v).setSp (t.sp - 4)).sp := (setSp_sp ..).symm
  refine ⟨p, hmap, hsp.symm, fun q hq => ?_⟩
  have hstored := byteAt_physWrite_of_outside (t.noteStore .word p) .word v (Nat.not_lt.mpr hq)
  refine Eq.trans ?_ hstored
  unfold State.byteAt
  rw [setSp_mem]

theorem four_slots (a : Word) (j : Nat) : a - 4 * BitVec.ofNat 32 j - 4 = a - 4 * BitVec.ofNat 32 (j + 1) := by
  have hslots : (4 : Word) * BitVec.ofNat 32 (j + 1) = 4 * BitVec.ofNat 32 j + 4 := by
    rw [BitVec.ofNat_add, BitVec.mul_add]
    rfl
  rw [hslots, BitVec.sub_sub]

/-- Every byte outside the words below the aligned stack pointer keeps its value while registers are pushed. -/
theorem byteAt_pushes {r : Reg} {n : Nat} {s : State} {q : Word} : ∀ {k j : Nat} {t u : State},
    (sequenceParts (.pushn r) n).after k j t = some u → t.frame = s.frame → wordAddress t.sp = t.sp →
    t.sp = s.sp - 4 * BitVec.ofNat 32 j →
    (∀ x p, x < j + k → s.translate .write (s.sp - 4 * BitVec.ofNat 32 (x + 1)) = some p → 4 ≤ (q - p).toNat) →
    u.byteAt q = t.byteAt q
  | 0, _, _, _, h, _, _, _, _ => by rw [Option.some.inj h]
  | k + 1, j, t, u, h, hframe, halign, hsp, hout => by
    obtain ⟨w, hp, h⟩ := Parts.after_cons h
    obtain ⟨p, hmap, hsp', hbyte⟩ := pushWord_stack hp
    have hnext : t.sp - 4 = s.sp - 4 * BitVec.ofNat 32 (j + 1) := by rw [hsp, four_slots]
    have halign' : wordAddress (t.sp - 4) = t.sp - 4 := wordAddress_sub halign (by decide)
    rw [halign'] at hsp'
    have hout' := hout j p (by omega) (by rw [← hnext, ← translate_of_frame hframe, hmap])
    refine (byteAt_pushes (k := k) (j := j + 1) (s := s) h ((frame_pushWord hp).trans hframe) ?_ ?_ ?_).trans (hbyte q hout')
    · rw [hsp']
      exact halign'
    · rw [hsp', hnext]
    · exact fun x p' hx => hout x p' (by omega)

theorem aligned_of_mod {a : Word} (h : a.toNat % 4 = 0) : wordAddress a = a := (wordAddress_eq_self_iff a).mpr h

/-- Settles O41. -/
theorem pushAndPopRegisters : Obligations.PushAndPopRegisters := fun s u r => by
  refine ⟨fun n count h hu hdone => ⟨?_, fun halign q hout => ?_⟩, fun n count h hpos hu hdone => ⟨?_, ?_⟩⟩
  · have hpos : 0 < count := by
      obtain ⟨-, rfl⟩ := Prod.mk.inj h
      exact Nat.succ_pos _
    exact sequence_completes trivial h hpos hu hdone
  · rw [partsDone_eq_after (.inl ⟨r, rfl⟩)] at hdone
    refine byteAt_pushes hdone rfl (aligned_of_mod halign) ?_ fun x p hx => hout x p (by omega)
    exact (BitVec.sub_zero _).symm
  · rw [partsDone_eq_after (.inr (.inl ⟨r, rfl⟩))] at hdone
    exact mem_pops (.inl ⟨r, rfl⟩) hdone
  · exact sequence_completes trivial h hpos hu hdone

end Sys2Proof.Machine
end

section
/-! `pushs` and `pops` (47_pushpop.md R377 to R379). -/

namespace Sys2Proof.Machine
open Sys2Proof.Spec

/-! ## PSR or SP singly -/

theorem macclrHazard_sp (s : State) : s.macclrHazard 1#4 = false := by
  simp [State.macclrHazard]

/-- `pushs` of PSR or SP pushes the one word. -/
theorem exec_pushs_single {s : State} {n : SReg} (hfree : s.Free (.pushs n)) {top : SReg} (htop : (if s.psr.pm then s.psr.rc else n) = top)
    (hsingle : top = 0 ∨ top = 1) (hwindow : 0 < s.macWindow → top = 1) :
    exec (.pushs n) s =
      (specialRead s top).2.orAbort ((specialRead s top).2.pushWord (specialRead s top).1) State.endSequence := by
  have hlit : top = 0#4 ∨ top = 1#4 := hsingle
  have hopen : s.macclrHazard (if top = 0#4 ∨ top = 1#4 then top else 2#4) = false := by
    rw [if_pos hlit, Bool.eq_false_iff, Ne, macclrHazard_iff]
    rintro ⟨hpos, hnum⟩
    rw [hwindow hpos] at hnum
    exact absurd hnum (by decide)
  apply exec_of_issue (hfree := hfree)
  · rfl
  · dsimp only
    rw [htop, hopen, if_neg Bool.false_ne_true, if_pos hlit, specialRead_eq]

/-- `pops` of PSR or SP pops the one word. -/
theorem exec_pops_single {s : State} {n : SReg} (hfree : s.Free (.pops n)) (hsingle : n = 0 ∨ n = 1) (hpm : s.psr.pm = false) :
    exec (.pops n) s = s.orAbort s.popWord fun vt => (vt.2.restoreSpecial n vt.1).endSequence := by
  have hlow : decide (4 ≤ n.toNat) = false := by
    obtain rfl | rfl := hsingle <;> rfl
  apply exec_of_issue (hfree := hfree)
  · rfl
  · dsimp only
    rw [hlow, Bool.and_false, if_neg Bool.false_ne_true, hpm]
    exact if_pos (decide_eq_true hsingle)

theorem pushs_single_completes {s u : State} {n top : SReg} (htop : (if s.psr.pm then s.psr.rc else n) = top)
    (hsingle : top = 0 ∨ top = 1) (hwindow : 0 < s.macWindow → top = 1)
    (h : push1 (specialRead s top).1 (specialRead s top).2 = some u) : RunsTo (.pushs n) s (u.setPm false) := fun hfree => by
  rw [exec_pushs_single hfree htop hsingle hwindow]
  rw [push1_eq] at h
  cases hp : (specialRead s top).2.pushWord (specialRead s top).1 with
  | error e => rw [hp] at h; cases h
  | ok t =>
    rw [hp] at h
    obtain rfl := Option.some.inj h
    have hframe := frame_pushWord hp
    simp only [State.frame, Prod.mk.injEq] at hframe
    obtain ⟨-, -, pc, -⟩ := hframe
    rw [orAbort_ok, ← specialRead_pc s top, ← pc]
    rfl

theorem pops_single_completes {s u : State} {n : SReg} (hsingle : n = 0 ∨ n = 1) (hpm : s.psr.pm = false)
    (h : s.popWord.toOption.map (fun vt => vt.2.restoreSpecial n vt.1) = some u) :
    u.mem = s.mem ∧ RunsTo (.pops n) s (u.setPm false) := by
  cases hp : s.popWord with
  | error e => rw [hp] at h; cases h
  | ok vt =>
    obtain ⟨v, t⟩ := vt
    rw [hp] at h
    obtain rfl := Option.some.inj h
    obtain ⟨p, -, -, rfl⟩ := popWord_ok hp
    have hmem : ((s.setSp (s.sp + 4)).restoreSpecial n v).mem = (s.setSp (s.sp + 4)).mem := by
      obtain rfl | rfl := hsingle <;> rfl
    have hpc : ((s.setSp (s.sp + 4)).restoreSpecial n v).pc = (s.setSp (s.sp + 4)).pc := by
      obtain rfl | rfl := hsingle <;> rfl
    refine ⟨hmem.trans (setSp_mem ..), fun hfree => ?_⟩
    rw [exec_pops_single hfree hsingle hpm, hp, orAbort_ok, ← setSp_pc s (s.sp + 4), ← hpc]
    rfl

/-! ## The stops -/

theorem pushs_in_window {s : State} {n top : SReg} (htop : (if s.psr.pm then s.psr.rc else n) = top) (hpos : 0 < s.macWindow)
    (hne : top ≠ 1) (hfree : s.Free (.pushs n)) : exec (.pushs n) s = .fault .macclrHazard := by
  have hhazard : s.macclrHazard (if top = 0#4 ∨ top = 1#4 then top else 2#4) = true := by
    rw [macclrHazard_iff]
    refine ⟨hpos, ?_⟩
    split
    case isTrue h => exact .inl (h.resolve_right hne)
    case isFalse => exact .inr (.inl rfl)
  apply exec_of_issue (hfree := hfree)
  · rfl
  · dsimp only
    rw [htop, if_pos hhazard]

/-- Settles O42, from the single forms, the sequences of parts, and the two stops. -/
theorem pushAndPopSpecials : Obligations.PushAndPopSpecials := fun s u n => by
  refine ⟨fun hsingle hwindow h => pushs_single_completes rfl hsingle hwindow h,
    fun first count h hpos hstart hu hdone => sequence_completes hstart h hpos hu hdone,
    fun hpos hne hfree => pushs_in_window rfl hpos hne hfree, fun hn hpm h => ?_, fun hn hpm h => ?_,
    fun first count h hpos hstart hu hdone => ⟨?_, sequence_completes hstart h hpos hu hdone⟩, fun h4 hloop hfree => ?_⟩
  · refine pops_single_completes (.inl hn) hpm ?_
    rw [pop1_eq] at h
    subst hn
    rw [Option.map_eq_bind, ← h]
    rfl
  · refine pops_single_completes (.inr hn) hpm ?_
    rw [pop1_eq] at h
    subst hn
    rw [Option.map_eq_bind, ← h]
    rfl
  · rw [partsDone_eq_after (.inr (.inr (.inr ⟨n, rfl⟩)))] at hdone
    exact mem_pops (.inr ⟨n, rfl⟩) hdone
  · apply exec_of_issue (hfree := hfree)
    · rfl
    · exact if_pos (by simpa [h4] using hloop)

end Sys2Proof.Machine
end

section
/-! Repeated accumulation as an instruction in parts (44_mac.md R313 to R317). -/

namespace Sys2Proof.Machine
open Sys2Proof.Spec

/-! ## One pass -/

/-- What a pass does to the two pointers and the counter. -/
def State.macAdvanced (s : State) (rs : Reg) (z1 z2 : Size) : State :=
  let t := s.setReg (rs + 1) (s.reg (rs + 1) + z1.bytes)
  let t := t.setReg (rs + 2) (t.reg (rs + 2) + z2.bytes)
  t.setReg rs (t.reg rs - 1)

/-- What a pass does once both operands x and y are read. -/
def State.macPassed (s : State) (rs : Reg) (z1 z2 : Size) (x y : Int) : State :=
  ((s.macStep x y).macAdvanced rs z1 z2).loseOverlap rs

theorem macPass_eq {s : State} {rs : Reg} {z1 z2 : Size} {v w : Word} (h1 : s.memRead z1 (s.reg (rs + 1)) = .ok v)
    (h2 : s.memRead z2 (s.reg (rs + 2)) = .ok w) :
    s.macPass rs z1 z2 = .ok (s.macPassed rs z1 z2 (signedOperand z1 v) (signedOperand z2 w)) := by
  unfold State.macPass
  rw [h1, h2]
  rfl

theorem macPass_first_fails {s : State} {rs : Reg} {z1 z2 : Size} {e : Abort} (h : s.memRead z1 (s.reg (rs + 1)) = .error e) :
    s.macPass rs z1 z2 = .error e := by
  unfold State.macPass
  rw [h]

theorem macPass_second_fails {s : State} {rs : Reg} {z1 z2 : Size} {v : Word} {e : Abort}
    (h1 : s.memRead z1 (s.reg (rs + 1)) = .ok v) (h2 : s.memRead z2 (s.reg (rs + 2)) = .error e) :
    s.macPass rs z1 z2 = .error e := by
  unfold State.macPass
  rw [h1, h2]

theorem macPass_ok {s u : State} {rs : Reg} {z1 z2 : Size} (h : s.macPass rs z1 z2 = .ok u) :
    ∃ x y, u = s.macPassed rs z1 z2 x y := by
  cases h1 : s.memRead z1 (s.reg (rs + 1)) with
  | error e => rw [macPass_first_fails h1] at h; cases h
  | ok v =>
    cases h2 : s.memRead z2 (s.reg (rs + 2)) with
    | error e => rw [macPass_second_fails h1 h2] at h; cases h
    | ok w =>
      rw [macPass_eq h1 h2] at h
      exact ⟨_, _, (Except.ok.inj h).symm⟩

/-- The state u differs from s in no more than a pass may change. -/
def Accumulated (s u : State) : Prop :=
  ∃ gpr alr ahr mo free, u = { s with gpr := gpr, alr := alr, ahr := ahr, psr := { s.psr with mo := mo }, free := free }

theorem Accumulated.rfl {s : State} : Accumulated s s := ⟨s.gpr, s.alr, s.ahr, s.psr.mo, s.free, Eq.refl _⟩

theorem Accumulated.trans {s t u : State} (h : Accumulated s t) (h' : Accumulated t u) : Accumulated s u := by
  obtain ⟨_, _, _, _, _, rfl⟩ := h
  obtain ⟨gpr, alr, ahr, mo, free, rfl⟩ := h'
  exact ⟨gpr, alr, ahr, mo, free, Eq.refl _⟩

theorem accumulated_setReg (s : State) (r : Reg) (v : Word) : Accumulated s (s.setReg r v) :=
  ⟨_, s.alr, s.ahr, s.psr.mo, s.free, Eq.refl _⟩

theorem accumulated_writeAlr (s : State) (v : Word) : Accumulated s (s.writeAlr v) := by
  have halr : Accumulated s { s with alr := v } := ⟨s.gpr, v, s.ahr, s.psr.mo, s.free, Eq.refl _⟩
  unfold State.writeAlr
  dsimp only
  split
  · exact halr.trans (accumulated_setReg ..)
  · exact halr

theorem accumulated_writeAhr (s : State) (v : Word) : Accumulated s (s.writeAhr v) := by
  have hahr : Accumulated s { s with ahr := v } := ⟨s.gpr, s.alr, v, s.psr.mo, s.free, Eq.refl _⟩
  unfold State.writeAhr
  dsimp only
  split
  · exact hahr.trans (accumulated_setReg ..)
  · exact hahr

theorem accumulated_macStep (s : State) (x y : Int) : Accumulated s (s.macStep x y) := by
  have hmo (t : State) (b : Bool) : Accumulated t { t with psr := { t.psr with mo := b } } :=
    ⟨t.gpr, t.alr, t.ahr, b, t.free, Eq.refl _⟩
  exact ((accumulated_writeAhr ..).trans (accumulated_writeAlr ..)).trans (hmo ..)

theorem accumulated_draw (s : State) : Accumulated s s.draw.2 := ⟨s.gpr, s.alr, s.ahr, s.psr.mo, _, Eq.refl _⟩

theorem accumulated_loseMirror (s : State) (on : Bool) (r rs : Reg) : Accumulated s (loseMirror s on r rs) := by
  unfold loseMirror
  split
  · exact (accumulated_draw s).trans (accumulated_setReg ..)
  · exact Accumulated.rfl

theorem usesRegister_iff (rs r : Reg) : usesRegister rs r = true ↔ r = rs ∨ r = rs + 1 ∨ r = rs + 2 := by
  simp [usesRegister, or_assoc]

/-- Losing R4 and losing R5, one after the other. -/
theorem loseOverlap_eq (s : State) (rs : Reg) : s.loseOverlap rs = loseMirror (loseMirror s s.psr.lc 4 rs) s.psr.hc 5 rs := by
  have hone (t : State) (on : Bool) (r : Reg) :
      (if on && usesRegister rs r then t.draw.2.setReg r t.draw.1 else t) = loseMirror t on r rs := by
    unfold loseMirror
    refine ite_congr (propext ?_) (fun _ => Eq.refl _) fun _ => Eq.refl _
    rw [Bool.and_eq_true, usesRegister_iff]
  have hhc : s.psr.hc = (loseMirror s s.psr.lc 4 rs).psr.hc := by
    obtain ⟨_, _, _, _, _, h⟩ := accumulated_loseMirror s s.psr.lc 4 rs
    rw [h]
  unfold State.loseOverlap
  dsimp only
  rw [hone s s.psr.lc 4#4, hhc]
  exact hone _ _ 5#4

theorem accumulated_macAdvanced (s : State) (rs : Reg) (z1 z2 : Size) : Accumulated s (s.macAdvanced rs z1 z2) :=
  ((accumulated_setReg ..).trans (accumulated_setReg ..)).trans (accumulated_setReg ..)

theorem accumulated_macPassed (s : State) (rs : Reg) (z1 z2 : Size) (x y : Int) : Accumulated s (s.macPassed rs z1 z2 x y) := by
  unfold State.macPassed
  rw [loseOverlap_eq]
  exact ((accumulated_macStep ..).trans (accumulated_macAdvanced ..)).trans
    ((accumulated_loseMirror ..).trans (accumulated_loseMirror ..))

theorem macPass_accumulated {s u : State} {rs : Reg} {z1 z2 : Size} (h : s.macPass rs z1 z2 = .ok u) : Accumulated s u := by
  obtain ⟨x, y, rfl⟩ := macPass_ok h
  exact accumulated_macPassed ..

/-! ## The counter (44_mac.md R313, R317) -/

theorem counterKept_of_accumulated {s u : State} {rs : Reg} (h : Accumulated s u) (hkept : CounterKept s rs) : CounterKept u rs := by
  obtain ⟨_, _, _, _, _, rfl⟩ := h
  exact hkept

theorem reg_macStep {s : State} {rs : Reg} (hkept : CounterKept s rs) (x y : Int) : (s.macStep x y).reg rs = s.reg rs := by
  obtain ⟨hlc, hhc⟩ := hkept
  have hreg (p : BitVec 64) : (s.writeAcc p).reg rs = s.reg rs := by
    unfold State.writeAcc
    rw [writeAlr_reg, writeAhr_reg, writeAhr_psr, if_neg, if_neg]
    · exact fun h => hhc h.1 h.2
    · exact fun h => hlc h.1 h.2
  exact hreg _

theorem reg_loseMirror {s : State} {on : Bool} {r rs : Reg} (h : on = true → rs ≠ r) : (loseMirror s on r rs).reg rs = s.reg rs := by
  unfold loseMirror
  split
  case isTrue hon => exact setReg_reg_of_ne _ _ (h hon.1)
  case isFalse => rfl

theorem reg_macAdvanced (s : State) (rs : Reg) (z1 z2 : Size) : (s.macAdvanced rs z1 z2).reg rs = s.reg rs - 1 := by
  have h1 : rs ≠ rs + 1 := by bv_omega
  have h2 : rs ≠ rs + 2 := by bv_omega
  unfold State.macAdvanced
  dsimp only
  rw [setReg_reg_self, setReg_reg_of_ne _ _ h2, setReg_reg_of_ne _ _ h1]

/-- A pass takes one from the counter. -/
theorem reg_macPassed {s : State} {rs : Reg} (hkept : CounterKept s rs) (z1 z2 : Size) (x y : Int) :
    (s.macPassed rs z1 z2 x y).reg rs = s.reg rs - 1 := by
  obtain ⟨hlc, hhc⟩ := counterKept_of_accumulated
    ((accumulated_macStep s x y).trans (accumulated_macAdvanced _ rs z1 z2)) hkept
  unfold State.macPassed
  rw [loseOverlap_eq, reg_loseMirror hhc, reg_loseMirror hlc, reg_macAdvanced, reg_macStep hkept]

theorem reg_macPass {s u : State} {rs : Reg} {z1 z2 : Size} (hkept : CounterKept s rs) (h : s.macPass rs z1 z2 = .ok u) :
    u.reg rs = s.reg rs - 1 := by
  obtain ⟨x, y, rfl⟩ := macPass_ok h
  exact reg_macPassed hkept ..

end Sys2Proof.Machine
end

section
/-! Repeated accumulations that nothing interrupts (44_mac.md R313 to R317). -/

namespace Sys2Proof.Machine
open Sys2Proof.Spec

/-! ## A pass takes no notice of inputs, PM and RC -/

theorem writeAlr_tagged (s : State) (v : Word) (l : List HostInput) (pm : Bool) (rc : BitVec 4) :
    (s.tagged l pm rc).writeAlr v = (s.writeAlr v).tagged l pm rc := by
  show (if s.psr.lc then _ else _) = State.tagged (if s.psr.lc then _ else _) l pm rc
  split <;> rfl

theorem writeAhr_tagged (s : State) (v : Word) (l : List HostInput) (pm : Bool) (rc : BitVec 4) :
    (s.tagged l pm rc).writeAhr v = (s.writeAhr v).tagged l pm rc := by
  show (if s.psr.hc then _ else _) = State.tagged (if s.psr.hc then _ else _) l pm rc
  split <;> rfl

theorem macStep_tagged (s : State) (x y : Int) (l : List HostInput) (pm : Bool) (rc : BitVec 4) :
    (s.tagged l pm rc).macStep x y = (s.macStep x y).tagged l pm rc := by
  unfold State.macStep State.writeAcc
  dsimp only
  rw [writeAhr_tagged, writeAlr_tagged]
  rfl

theorem loseMirror_tagged (s : State) (on : Bool) (r rs : Reg) (l : List HostInput) (pm : Bool) (rc : BitVec 4) :
    loseMirror (s.tagged l pm rc) on r rs = (loseMirror s on r rs).tagged l pm rc := by
  unfold loseMirror
  split <;> rfl

theorem loseOverlap_tagged (s : State) (rs : Reg) (l : List HostInput) (pm : Bool) (rc : BitVec 4) :
    (s.tagged l pm rc).loseOverlap rs = (s.loseOverlap rs).tagged l pm rc := by
  rw [loseOverlap_eq, loseOverlap_eq, ← loseMirror_tagged, ← loseMirror_tagged]
  rfl

theorem macPassed_tagged (s : State) (rs : Reg) (z1 z2 : Size) (x y : Int) (l : List HostInput) (pm : Bool) (rc : BitVec 4) :
    (s.tagged l pm rc).macPassed rs z1 z2 x y = (s.macPassed rs z1 z2 x y).tagged l pm rc := by
  unfold State.macPassed
  rw [macStep_tagged]
  exact loseOverlap_tagged ((s.macStep x y).macAdvanced rs z1 z2) rs l pm rc

theorem macPass_tagged (s : State) (rs : Reg) (z1 z2 : Size) (l : List HostInput) (pm : Bool) (rc : BitVec 4) :
    (s.tagged l pm rc).macPass rs z1 z2 = (s.macPass rs z1 z2).map fun u => u.tagged l pm rc := by
  cases h1 : s.memRead z1 (s.reg (rs + 1)) with
  | error e => rw [macPass_first_fails h1, macPass_first_fails (s := s.tagged l pm rc) h1]; rfl
  | ok v =>
    cases h2 : s.memRead z2 (s.reg (rs + 2)) with
    | error e => rw [macPass_second_fails h1 h2, macPass_second_fails (s := s.tagged l pm rc) h1 h2]; rfl
    | ok w =>
      rw [macPass_eq h1 h2, macPass_eq (s := s.tagged l pm rc) h1 h2]
      exact congrArg Except.ok (macPassed_tagged ..)

/-- A repeated accumulation, its passes the parts. -/
def macParts (rs : Reg) (z1 z2 : Size) : Parts where
  before _ s := s
  mark _ s := s
  part _ s := s.macPass rs z1 z2
  finish := State.done

theorem macParts_lawful (rs : Reg) (z1 z2 : Size) : (macParts rs z1 z2).Lawful where
  blind _ s l pm rc := macPass_tagged s rs z1 z2 l pm rc
  keeps h := by
    obtain ⟨_, _, _, _, _, rfl⟩ := macPass_accumulated h
    exact ⟨rfl, rfl, rfl, rfl, rfl⟩
  mark_ext _ _ := rfl

/-! ## The model's passes are these parts -/

theorem orAbort_congr {α : Type} {s : State} {x : Except Abort α} {k k' : α → Result} (h : ∀ a, x = .ok a → k a = k' a) :
    s.orAbort x k = s.orAbort x k' := by
  cases x with
  | error e => rfl
  | ok a => exact h a rfl

theorem innerBoundary_congr {s : State} {mark : State → State} {k k' : State → Result} (h : k s.poll.2 = k' s.poll.2) :
    s.innerBoundary mark k = s.innerBoundary mark k' := by
  unfold State.innerBoundary
  dsimp only
  rw [h]

theorem poll_inputs (s : State) : ∃ l, s.poll.2 = { s with inputs := l } := by
  cases h : s.inputs with
  | nil => exact ⟨s.inputs, by rw [poll_empty h]⟩
  | cons input rest => exact ⟨rest, by rw [poll_cons h]⟩

/-- As many passes as the counter says. -/
theorem macLoop_eq_run {rs : Reg} {z1 z2 : Size} : ∀ (left j : Nat) (s : State), (s.reg rs).toNat = left + 1 → CounterKept s rs →
    macLoop rs z1 z2 (left + 1) s = (macParts rs z1 z2).run left j s
  | left, j, s, hcount, hkept => by
    have hne : s.reg rs ≠ 0 := fun h => by rw [h] at hcount; cases hcount
    have hlast (t : State) (h : s.macPass rs z1 z2 = .ok t) : (t.reg rs).toNat = left := by
      rw [reg_macPass hkept h, toNat_sub_one hne, hcount]
      rfl
    rw [macLoop, if_neg hne]
    cases left with
    | zero =>
      refine orAbort_congr fun t h => if_pos ?_
      exact BitVec.eq_of_toNat_eq (hlast t h)
    | succ left =>
      refine orAbort_congr fun t h => ?_
      have hgo : t.reg rs ≠ 0 := fun hz => by
        have hcount' := hlast t h
        rw [hz] at hcount'
        cases hcount'
      obtain ⟨l, hpoll⟩ := poll_inputs t
      refine (if_neg hgo).trans (innerBoundary_congr ?_)
      rw [hpoll]
      have hkept' : CounterKept t rs := counterKept_of_accumulated (macPass_accumulated h) hkept
      exact macLoop_eq_run left (j + 1) { t with inputs := l } (hlast t h) hkept'

theorem exec_mac {i : Instr} {s : State} {rs : Reg} {z1 z2 : Size} (hfree : s.Free i) (hform : macForm i = some (rs, z1, z2)) :
    exec i s = macLoop rs z1 z2 (s.reg rs).toNat s := by
  cases i
  case mac =>
    cases hform
    exact exec_of_issue (effect := fun s => macLoop rs .half .half (s.reg rs).toNat s) rfl rfl hfree
  case macHw =>
    cases hform
    exact exec_of_issue (effect := fun s => macLoop rs .word .half (s.reg rs).toNat s) rfl rfl hfree
  case macW =>
    cases hform
    exact exec_of_issue (effect := fun s => macLoop rs .word .word (s.reg rs).toNat s) rfl rfl hfree
  all_goals cases hform

theorem exec_mac_eq_run {i : Instr} {s : State} {rs : Reg} {z1 z2 : Size} {left : Nat} (hfree : s.Free i)
    (hform : macForm i = some (rs, z1, z2)) (hkept : CounterKept s rs) (hcount : (s.reg rs).toNat = left + 1) :
    exec i s = (macParts rs z1 z2).run left 0 s := by
  rw [exec_mac hfree hform, hcount, macLoop_eq_run left 0 s hcount hkept]

/-! ## The spec's passes are these parts -/

theorem signedAt_eq (s : State) (z : Size) (p : Word) : signedAt s z p = signedOperand z (s.physRead z p) := by
  cases z
  · exact bmod_toNat_eq (s.physRead .byte p) 8
  · exact lowHalf_eq (s.physRead .half p)
  · rfl

/-- A read through Translate, with its alignment checked. -/
theorem memRead_cases (s : State) (z : Size) (a : Word) :
    (unaligned z a ∧ s.memRead z a = .error .misaligned) ∨
    (¬ unaligned z a ∧ s.translate .read a = none ∧ s.memRead z a = .error .miss) ∨
    (¬ unaligned z a ∧ ∃ p, s.translate .read a = some p ∧ s.memRead z a = .ok (s.physRead z p)) := by
  by_cases ha : unaligned z a
  · exact .inl ⟨ha, memRead_misaligned ((unaligned_iff ..).mp ha)⟩
  · have haligned := memRead_aligned (s := s) (misaligned_of_not_unaligned ha)
    obtain ⟨p, hp, hload⟩ | ⟨hp, hload⟩ := load_cases s z a
    · exact .inr (.inr ⟨ha, p, hp, haligned.trans hload⟩)
    · exact .inr (.inl ⟨ha, hp, haligned.trans hload⟩)

/-- The mirrors in effect are those before the pass. -/
theorem macPassed_eq (s : State) (rs : Reg) (z1 z2 : Size) (x y : Int) :
    s.macPassed rs z1 z2 x y = loseMirror (loseMirror ((s.macStep x y).macAdvanced rs z1 z2) s.psr.lc 4 rs) s.psr.hc 5 rs := by
  have hflags (t : State) (h : Accumulated s t) :
      loseMirror (loseMirror t t.psr.lc 4 rs) t.psr.hc 5 rs = loseMirror (loseMirror t s.psr.lc 4 rs) s.psr.hc 5 rs := by
    obtain ⟨_, _, _, _, _, rfl⟩ := h
    rfl
  rw [State.macPassed, loseOverlap_eq]
  exact hflags _ ((accumulated_macStep ..).trans (accumulated_macAdvanced ..))

theorem macStepOf_eq (s : State) (rs : Reg) (z1 z2 : Size) : macStepOf rs z1 z2 s = (s.macPass rs z1 z2).toOption := by
  unfold macStepOf
  dsimp only
  obtain ⟨ha1, h1⟩ | ⟨ha1, hp1, h1⟩ | ⟨ha1, p1, hp1, h1⟩ := memRead_cases s z1 (s.reg (rs + 1))
  · rw [macPass_first_fails h1]
    exact if_pos (.inl ha1)
  · rw [macPass_first_fails h1, hp1]
    exact ite_self _
  obtain ⟨ha2, h2⟩ | ⟨ha2, hp2, h2⟩ | ⟨ha2, p2, hp2, h2⟩ := memRead_cases s z2 (s.reg (rs + 2))
  · rw [macPass_second_fails h1 h2]
    exact if_pos (.inr ha2)
  · rw [macPass_second_fails h1 h2, hp1, hp2]
    exact ite_self _
  · rw [macPass_eq h1 h2, hp1, hp2]
    refine (if_neg (not_or.mpr ⟨ha1, ha2⟩)).trans ?_
    dsimp only
    rw [signedAt_eq, signedAt_eq, accumulate_eq]
    rw [macPassed_eq]
    rfl

theorem macSteps_eq_after (rs : Reg) (z1 z2 : Size) : ∀ (k j : Nat) (s : State),
    macSteps rs z1 z2 k s = (macParts rs z1 z2).after k j s
  | 0, _, _ => rfl
  | k + 1, j, s => by
    have ih : macSteps rs z1 z2 k = (macParts rs z1 z2).after k (j + 1) := funext (macSteps_eq_after rs z1 z2 k (j + 1))
    rw [macSteps, Parts.after, macStepOf_eq, ih]
    rfl

theorem macSteps_accumulated {rs : Reg} {z1 z2 : Size} {k : Nat} {s u : State} (h : macSteps rs z1 z2 k s = some u) :
    Accumulated s u := by
  rw [macSteps_eq_after rs z1 z2 k 0] at h
  exact Parts.after_rel (fun _ => Accumulated.rfl) Accumulated.trans macPass_accumulated h

/-- Settles O39. -/
theorem repeatedAccumulation : Obligations.RepeatedAccumulation := fun i s u rs z1 z2 hform hcount hu h => by
  have hacc := macSteps_accumulated h
  have hpc : u.pc = s.pc := by
    obtain ⟨_, _, _, _, _, rfl⟩ := hacc
    rfl
  refine ⟨?_, fun hfree => ?_⟩
  · obtain ⟨_, _, _, _, _, rfl⟩ := hacc
    rfl
  · cases hn : (s.reg rs).toNat with
    | zero =>
      rw [hn] at h
      obtain rfl := Option.some.inj h
      rw [exec_mac hfree hform, hn]
      exact if_pos (BitVec.eq_of_toNat_eq hn)
    | succ left =>
      have hkept : CounterKept s rs := hcount.resolve_left fun hz => by
        rw [hz] at hn
        cases hn
      rw [hn] at h hu
      rw [macSteps_eq_after rs z1 z2 _ 0] at h
      rw [exec_mac_eq_run hfree hform hkept hn, (macParts_lawful rs z1 z2).run_all h hu, ← hpc]
      rfl

end Sys2Proof.Machine
end

section
/-! Sequences and repeated accumulations that an event interrupts, and that are executed again (47_pushpop.md R380, 44_mac.md
R313, 60_exceptions.md R568). -/

namespace Sys2Proof.Machine
open Sys2Proof.Spec

/-! ## The event -/

theorem delay_none_of_free {i : Instr} {s : State} (hfree : s.Free i) (hslot : mayFillSlot i = false) : s.delay = none := by
  refine Decidable.byContradiction fun h => ?_
  have hm := hfree.1
  rw [misplaced_eq, if_pos ⟨h, hslot⟩] at hm
  cases hm

theorem accept_takes {input : HostInput} {s t : State} {ret : Word} (hcount : s.ext.count = 0) (hdelay : s.delay = none)
    (hme : s.psr.me = false) (hde : s.psr.de = false) (h : Takes input s ret t) : s.accept input ret = some (.next t) := by
  unfold Takes at h
  by_cases hbreak : input.debugBreak = true
  · rw [if_pos hbreak] at h
    rw [accept_debugBreak ret hcount hdelay hme hde hbreak, h]
  · rw [if_neg hbreak] at h
    rw [accept_quiet ret hcount hdelay fun hb => hbreak hb.1]
    by_cases hnmi : input.nmi = true ∧ s.nmiMasked = false ∧ s.nmiInService = false
    · rw [if_pos hnmi] at h
      obtain ⟨p1, p2, p3, hmaps, rfl⟩ := h
      rw [interrupt_nmi ret hme hde hnmi, trap_eq_entered (n := 7#8) hmaps]
    · rw [if_neg hnmi] at h
      obtain ⟨r, p1, p2, p3, hr, hie, hlevel, hmaps, rfl⟩ := h
      rw [interrupt_request ret hme hde hnmi hr hie hlevel, trap_eq_entered]
      rw [toNat_requestVector]
      exact hmaps

theorem mayFillSlot_sequence {i : Instr} (hi : IsSequence i) : mayFillSlot i = false := by
  obtain ⟨r, rfl⟩ | ⟨r, rfl⟩ | ⟨r, rfl⟩ | ⟨r, rfl⟩ := hi <;> rfl

theorem mayFillSlot_mac {i : Instr} {rs : Reg} {z1 z2 : Size} (h : macForm i = some (rs, z1, z2)) : mayFillSlot i = false := by
  cases i
  case mac => rfl
  case macHw => rfl
  case macW => rfl
  all_goals cases h

/-- An event behind the first parts of a sequence finds PM set and the next number in RC. -/
theorem sequence_event {i : Instr} {s u t : State} {n count k : Nat} {input : HostInput} {rest : List HostInput}
    (hfree : s.Free i) (hstart : MayStart i s) (h : Spec.sequence s i = (n, count)) (hext : s.ext.count = 0)
    (hme : s.psr.me = false) (hde : s.psr.de = false) (hk : k + 1 < count) (hu : Undisturbed s k)
    (hin : s.inputs.drop k = input :: rest) (hreset : input.reset = none) (hdone : partsDone i n (k + 1) s = some u)
    (htakes : Takes input (marked { u with inputs := rest } (partNumber i n (k + 1))) s.pc t) : exec i s = .next t := by
  have hpos : 0 < count := by omega
  have hi := isSequence_of_count h hpos
  have hq := sequenceParts_lawful i n
  rw [partsDone_eq_after hi] at hdone
  obtain ⟨ext, delay, pc, me, de⟩ := hq.after_keeps hdone
  rw [exec_sequence hfree hstart h hpos]
  refine hq.run_event (hq.after_setPm hdone true) (by omega) (undisturbed_congr hu rfl rfl) hin hreset ?_
  rw [Nat.zero_add, show (u.setPm true).pc = s.pc from pc]
  refine accept_takes ?_ ?_ (me.trans hme) (de.trans hde) htakes
  · exact (congrArg Ext.count ext).trans hext
  · exact delay.trans (delay_none_of_free hfree (mayFillSlot_sequence hi))

/-! ## Executed again -/

theorem misplaced_congr {i : Instr} {s t : State} (hdelay : t.delay = s.delay) (hpc : t.pc = s.pc) (hrm : t.psr.rm = s.psr.rm)
    (hlm : t.psr.lm = s.psr.lm) (hloop : (s.psr.lm = false ∧ s.psr.rm = false) ∨ (t.lsa = s.lsa ∧ t.lea = s.lea)) :
    t.misplaced i = s.misplaced i := by
  rw [misplaced_eq, misplaced_eq, hdelay, hpc, hrm, hlm]
  obtain ⟨h1, h2⟩ | ⟨h1, h2⟩ := hloop
  · rw [h1, h2, if_neg (c := _ = true ∧ _) (fun h => Bool.false_ne_true h.1),
      if_neg (c := _ = true ∧ _) (fun h => Bool.false_ne_true h.1)]
    simp
  · rw [h1, h2]

theorem loop_onePart {i : Instr} {m : Nat} {s u : State} (hlow : (∃ r, i = .pops r) → m < 4) (h : onePart i m s = .ok u) :
    u.lsa = s.lsa ∧ u.lea = s.lea := by
  unfold onePart at h
  split at h
  · obtain ⟨p, -, rfl⟩ := pushWord_ok h
    exact ⟨setSp_lsa .., setSp_lea ..⟩
  · obtain ⟨v, t, hp, rfl⟩ := map_popWord_ok h
    obtain ⟨p, -, -, rfl⟩ := popWord_ok hp
    exact ⟨setSp_lsa .., setSp_lea ..⟩
  · obtain ⟨p, -, rfl⟩ := pushWord_ok h
    have hdrawn : (specialWord s m).2.lsa = s.lsa ∧ (specialWord s m).2.lea = s.lea := by
      unfold specialWord
      split <;> exact ⟨rfl, rfl⟩
    exact ⟨(setSp_lsa ..).trans hdrawn.1, (setSp_lea ..).trans hdrawn.2⟩
  · obtain ⟨v, t, hp, rfl⟩ := map_popWord_ok h
    obtain ⟨p, -, -, rfl⟩ := popWord_ok hp
    have hrestored (t : State) : (restored t m v).lsa = t.lsa ∧ (restored t m v).lea = t.lea := by
      have hm := hlow ⟨_, rfl⟩
      match m, hm with
      | 0, _ | 1, _ | 2, _ | 3, _ => exact ⟨rfl, rfl⟩
    exact ⟨(hrestored _).1.trans (setSp_lsa ..), (hrestored _).2.trans (setSp_lea ..)⟩
  · rw [Except.ok.inj h]
    exact ⟨rfl, rfl⟩

/-- Pops up to a number below 4, and all other sequences, leave LSA and LEA alone. -/
theorem loop_after {i : Instr} {n : Nat} : ∀ {k j : Nat} {s u : State}, ((∃ r, i = .pops r) → n + j + k ≤ 4) →
    (sequenceParts i n).after k j s = some u → u.lsa = s.lsa ∧ u.lea = s.lea
  | 0, _, _, _, _, h => by
    rw [Option.some.inj h]
    exact ⟨rfl, rfl⟩
  | k + 1, j, s, u, hlow, h => by
    obtain ⟨t, hp, h⟩ := Parts.after_cons h
    have hnum : (∃ r, i = .pops r) → partNumber i n j < 4 := by
      rintro ⟨r, rfl⟩
      have := hlow ⟨r, rfl⟩
      show n + j < 4
      omega
    obtain ⟨lsa, lea⟩ := loop_onePart hnum hp
    obtain ⟨lsa', lea'⟩ := loop_after (k := k) (j := j + 1) (s := t) (fun hi => by have := hlow hi; omega) h
    exact ⟨lsa'.trans lsa, lea'.trans lea⟩

theorem frame_after {i : Instr} {n k j : Nat} {s u : State} (h : (sequenceParts i n).after k j s = some u) : u.frame = s.frame :=
  Parts.after_rel (R := fun s u => u.frame = s.frame) (fun _ => rfl) (fun h h' => h'.trans h) frame_onePart h

theorem partNumber_add (i : Instr) (n k j : Nat) : partNumber i (partNumber i n k) j = partNumber i n (k + j) := by
  cases i
  case popn => exact Nat.add_assoc ..
  case pops => exact Nat.add_assoc ..
  all_goals exact Nat.sub_sub ..

theorem after_from (i : Instr) (n k : Nat) : ∀ (c j : Nat) (s : State),
    (sequenceParts i (partNumber i n k)).after c j s = (sequenceParts i n).after c (k + j) s
  | 0, _, _ => rfl
  | c + 1, j, s => by
    have ih : (sequenceParts i (partNumber i n k)).after c (j + 1) = (sequenceParts i n).after c (k + j + 1) :=
      funext (after_from i n k c (j + 1))
    rw [Parts.after, Parts.after, ih]
    dsimp only [sequenceParts]
    rw [partNumber_add]

/-- Marked at the number behind its first parts, a sequence has the rest of them to do. -/
theorem sequence_marked {i : Instr} {s u : State} {n count k : Nat} (h : Spec.sequence s i = (n, count)) (hk : k < count) :
    Spec.sequence (marked u (partNumber i n k)) i = (partNumber i n k, count - k) := by
  have hrc (m : Nat) (hm : m < 16) : (BitVec.ofNat 4 m).toNat = m := (BitVec.toNat_ofNat m 4).trans (Nat.mod_eq_of_lt hm)
  obtain ⟨r, rfl⟩ | ⟨r, rfl⟩ | ⟨r, rfl⟩ | ⟨r, rfl⟩ := isSequence_of_count h (Nat.zero_lt_of_lt hk)
  all_goals
    dsimp only [Spec.sequence, marked, partNumber] at h ⊢
    obtain ⟨hn, hcount⟩ := Prod.mk.inj h
    have hlt := r.isLt
    rw [if_pos rfl]
  · generalize (if s.psr.pm = true then s.psr.rc else r) = first at *
    have hfirst := first.isLt
    rw [hrc _ (by omega), Prod.mk.injEq]
    omega
  · generalize (if s.psr.pm = true then s.psr.rc else _) = first at *
    rw [hrc _ (by omega), Prod.mk.injEq]
    omega
  · generalize (if s.psr.pm = true then s.psr.rc else r) = first at *
    have hfirst := first.isLt
    rw [hrc _ (by omega), Prod.mk.injEq]
    omega
  · generalize (if s.psr.pm = true then s.psr.rc else _) = first at *
    split at hcount
    · omega
    · rw [hrc _ (by omega), if_neg (by omega), Prod.mk.injEq]
      omega

theorem mayStart_marked {i : Instr} {s u : State} {m : Nat} (hframe : u.frame = s.frame) (h : MayStart i s) :
    MayStart i (marked u m) := by
  simp only [State.frame, Prod.mk.injEq] at hframe
  obtain ⟨-, -, -, psr, -, -, -, window⟩ := hframe
  unfold MayStart at h ⊢
  cases i
  case pushs => exact window.trans h
  case pops =>
    intro h4
    obtain ⟨hlm, hrm⟩ := h h4
    exact ⟨(congrArg Psr.lm psr).trans hlm, (congrArg Psr.rm psr).trans hrm⟩
  all_goals trivial

theorem free_marked {i : Instr} {s u : State} {m : Nat} (hframe : u.frame = s.frame)
    (hloop : (s.psr.lm = false ∧ s.psr.rm = false) ∨ (u.lsa = s.lsa ∧ u.lea = s.lea)) (h : s.Free i) : (marked u m).Free i := by
  simp only [State.frame, Prod.mk.injEq] at hframe
  obtain ⟨ext, delay, pc, psr, -⟩ := hframe
  obtain ⟨hplace, hskip⟩ := h
  constructor
  · rw [← hplace]
    have hrm : u.psr.rm = s.psr.rm := by rw [psr]
    have hlm : u.psr.lm = s.psr.lm := by rw [psr]
    exact misplaced_congr delay pc hrm hlm hloop
  · rw [← hskip]
    unfold State.skips marked
    dsimp only
    rw [ext, psr]
    rfl

/-- A sequence has either no loop to meet or registers below 4 to pop. -/
theorem loop_or_low {i : Instr} {s : State} {n count : Nat} (h : Spec.sequence s i = (n, count)) (hpos : 0 < count)
    (hstart : MayStart i s) : (s.psr.lm = false ∧ s.psr.rm = false) ∨ ((∃ r, i = .pops r) → n + count ≤ 4) := by
  by_cases hhigh : ∃ r, i = .pops r ∧ 4 ≤ r.toNat
  · obtain ⟨r, rfl, h4⟩ := hhigh
    exact .inl (hstart h4)
  · refine .inr ?_
    rintro ⟨r, rfl⟩
    have hr : ¬ 4 ≤ r.toNat := fun h4 => hhigh ⟨r, rfl, h4⟩
    dsimp only [Spec.sequence] at h
    obtain ⟨hn, hcount⟩ := Prod.mk.inj h
    rw [hn] at hcount
    split at hcount <;> omega

/-- The marked sequence, executed again without inputs, does the parts that are left. -/
theorem sequence_resumes {i : Instr} {s u v : State} {n count k : Nat} (hfree : s.Free i) (hstart : MayStart i s)
    (h : Spec.sequence s i = (n, count)) (hin : s.inputs = []) (hk : k < count) (hdone : partsDone i n k s = some u)
    (hall : partsDone i n count s = some v) :
    exec i (marked u (partNumber i n k)) = .next (((marked v (partNumber i n k)).setPm false).complete (s.pc + 2)) := by
  have hpos := Nat.zero_lt_of_lt hk
  have hi := isSequence_of_count h hpos
  have hq := sequenceParts_lawful i n
  rw [partsDone_eq_after hi] at hdone hall
  have hframe := frame_after hdone
  have hinputs : u.inputs = [] := (hq.after_tags hdone).1.trans hin
  have hloop : (s.psr.lm = false ∧ s.psr.rm = false) ∨ (u.lsa = s.lsa ∧ u.lea = s.lea) :=
    (loop_or_low h hpos hstart).imp id fun hlow => loop_after (fun hp => by have := hlow hp; omega) hdone
  have hrest : (sequenceParts i n).after (count - k) (0 + k) u = some v := by
    rw [show count = k + (count - k) by omega, Parts.after_add, hdone] at hall
    exact hall
  have hsame : v.inputs = u.inputs := (hq.after_tags hrest).1
  have hmarked := hq.after_tagged u.inputs true (BitVec.ofNat 4 (partNumber i n k)) _ _ _ _ hrest
  have hleft : partsDone i (partNumber i n k) (count - k) (marked u (partNumber i n k)) = some (marked v (partNumber i n k)) := by
    rw [partsDone_eq_after hi, after_from, Nat.add_comm k 0,
      show marked u (partNumber i n k) = u.tagged u.inputs true (BitVec.ofNat 4 (partNumber i n k)) from rfl]
    rw [hmarked, ← hsame]
    rfl
  have hquiet : Undisturbed (marked u (partNumber i n k)) (count - k - 1) := fun input hmem => by
    rw [show (marked u (partNumber i n k)).inputs = [] from hinputs, List.take_nil] at hmem
    cases hmem
  have hrun := sequence_completes (mayStart_marked hframe hstart) (sequence_marked h hk) (by omega) hquiet hleft
    (free_marked hframe hloop hfree)
  rw [waited_nil (show (marked v (partNumber i n k)).inputs = [] from hsame.trans hinputs),
    show (marked u (partNumber i n k)).pc = s.pc from (hq.after_keeps hdone).2.2.1] at hrun
  exact hrun

/-! ## Repeated accumulations -/

theorem mac_event {i : Instr} {s u t : State} {rs : Reg} {z1 z2 : Size} {k : Nat} {input : HostInput} {rest : List HostInput}
    (hfree : s.Free i) (hform : macForm i = some (rs, z1, z2)) (hkept : CounterKept s rs) (hext : s.ext.count = 0)
    (hme : s.psr.me = false) (hde : s.psr.de = false) (hk : k + 1 < (s.reg rs).toNat) (hu : Undisturbed s k)
    (hin : s.inputs.drop k = input :: rest) (hreset : input.reset = none) (hdone : macSteps rs z1 z2 (k + 1) s = some u)
    (htakes : Takes input { u with inputs := rest } s.pc t) : exec i s = .next t := by
  have hq := macParts_lawful rs z1 z2
  rw [macSteps_eq_after rs z1 z2 _ 0] at hdone
  obtain ⟨ext, delay, pc, me, de⟩ := hq.after_keeps hdone
  rw [exec_mac_eq_run (left := (s.reg rs).toNat - 1) hfree hform hkept (by omega)]
  refine hq.run_event hdone (by omega) hu hin hreset ?_
  rw [pc]
  refine accept_takes ?_ ?_ (me.trans hme) (de.trans hde) htakes
  · exact (congrArg Ext.count ext).trans hext
  · exact delay.trans (delay_none_of_free hfree (mayFillSlot_mac hform))

theorem reg_macSteps {rs : Reg} {z1 z2 : Size} : ∀ {k : Nat} {s u : State}, CounterKept s rs → k ≤ (s.reg rs).toNat →
    macSteps rs z1 z2 k s = some u → (u.reg rs).toNat = (s.reg rs).toNat - k
  | 0, _, _, _, _, h => by
    rw [Option.some.inj h]
    rfl
  | k + 1, s, u, hkept, hk, h => by
    rw [macSteps, macStepOf_eq] at h
    cases hp : s.macPass rs z1 z2 with
    | error e => rw [hp] at h; cases h
    | ok t =>
      rw [hp] at h
      have hne : s.reg rs ≠ 0 := fun hz => by rw [hz] at hk; cases hk
      have hcount : (t.reg rs).toNat = (s.reg rs).toNat - 1 := by rw [reg_macPass hkept hp, toNat_sub_one hne]
      have hleft := reg_macSteps (k := k) (s := t) (counterKept_of_accumulated (macPass_accumulated hp) hkept) (by omega) h
      omega

/-- A repeated accumulation executed again after some passes does the passes that are left. -/
theorem mac_resumes {i : Instr} {s u : State} {rs : Reg} {z1 z2 : Size} {k : Nat} (hfree : s.Free i)
    (hform : macForm i = some (rs, z1, z2)) (hkept : CounterKept s rs) (hin : s.inputs = []) (hk : k < (s.reg rs).toNat)
    (hdone : macSteps rs z1 z2 k s = some u) : exec i u = exec i s := by
  have hacc := macSteps_accumulated hdone
  have hcount := reg_macSteps hkept (Nat.le_of_lt hk) hdone
  have hfree' : u.Free i := by
    obtain ⟨_, _, _, _, _, rfl⟩ := hacc
    exact hfree
  have hinputs : u.inputs = [] := by
    obtain ⟨_, _, _, _, _, rfl⟩ := hacc
    exact hin
  have hquiet : Undisturbed s k := fun input hmem => by
    rw [hin, List.take_nil] at hmem
    cases hmem
  have hrun := (macParts_lawful rs z1 z2).run_after k ((u.reg rs).toNat - 1) 0 s u
    ((macSteps_eq_after rs z1 z2 k 0 s).symm.trans hdone) hquiet
  have hkept' := counterKept_of_accumulated hacc hkept
  have hleft : (u.reg rs).toNat = (u.reg rs).toNat - 1 + 1 := by omega
  rw [waited_nil hinputs] at hrun
  rw [exec_mac hfree' hform, hleft, macLoop_eq_run _ (0 + k) u hleft hkept', ← hrun]
  exact (exec_mac_eq_run hfree hform hkept (by omega)).symm

/-- Settles O43: sequences and repeated accumulations, at the event and executed again. -/
theorem interruptedSequenceResumes : Obligations.InterruptedSequenceResumes := by
  refine ⟨?_, ?_, ?_, ?_⟩
  · intro i s u t n count k input rest
    exact sequence_event
  · intro i s u v n count k
    exact sequence_resumes
  · intro i s u t rs z1 z2 k input rest
    exact mac_event
  · intro i s u rs z1 z2 k
    exact mac_resumes

end Sys2Proof.Machine
end

section
/-! Accesses that are not performed (20_memory.md R84, R93, 60_exceptions.md R574, R590). -/

namespace Sys2Proof.Machine
open Sys2Proof.Spec

/-! ## Aborting -/

/-- The failure of an access, by whether it was misaligned. -/
def failure (misaligned : Bool) : Abort := if misaligned then .misaligned else .miss

theorem entryMaps_restart {s : State} {n : Nat} {p1 p2 p3 : Word} (h : EntryMaps s n p1 p2 p3) :
    EntryMaps s.restart.2 n p1 p2 p3 := by
  obtain hs | hs := restart_state s <;> rw [hs]
  · exact h
  · exact h

theorem restart_flags (s : State) : s.restart.2.psr = s.psr := by
  obtain hs | hs := restart_state s <;> rw [hs]

/-- An instruction that aborts from a state takes vector 6 or the MMU exception from it. -/
theorem aborts_of_abort {i : Instr} {before s : State} {misaligned : Bool} (h : exec i before = s.abort (failure misaligned)) :
    Aborts i before s misaligned := by
  unfold Aborts
  cases misaligned with
  | true =>
    have hraise : exec i before = s.restart.2.raise .addressMisaligned 6#8 s.restart.1 s.restart.1 := h
    rw [if_pos rfl, hraise]
    refine ⟨fun hme hde p1 p2 p3 hmaps => ⟨_, _, restartsAt_restart s, ?_⟩, fun hin => raise_handler ?_⟩
    · rw [← restart_flags s] at hme hde
      exact raise_entered (n := 6#8) _ _ _ hme hde (entryMaps_restart hmaps)
    · rw [restart_flags]
      exact hin
  | false =>
    have hmiss : exec i before = s.restart.2.mmuException s.restart.1 := h
    rw [if_neg Bool.false_ne_true, hmiss]
    refine ⟨fun hde => ⟨_, _, restartsAt_restart s, ?_⟩, fun hde => ?_⟩
    · rw [← restart_flags s] at hde
      exact mmuException_eq hde _
    · rw [← restart_flags s] at hde
      exact mmuException_fault hde _

theorem exec_error {i : Instr} {s : State} {e : Abort} {α : Type} {x : Except Abort α} {k : α → Result} {effect : State → Result}
    (hexec : exec i s = s.issue i effect) (heffect : effect s = s.orAbort x k) (he : x = .error e) (hfree : s.Free i) :
    exec i s = s.abort e := by
  refine exec_of_issue hexec ?_ hfree
  rw [heffect, he]
  rfl

/-! ## The first access of an instruction -/

/-- An instruction whose first access, at address a, is not performed does nothing else. -/
def FirstAccess (i : Instr) (s : State) (k : AccessKind) (z : Size) (a : Word) (checked : Bool) : Prop :=
  s.Free i → (checked = true → unaligned z a → exec i s = s.abort .misaligned) ∧
    ((checked = true → ¬ unaligned z a) → s.translate k a = none → exec i s = s.abort .miss)

section

variable {i : Instr} {s : State} {z : Size} {a : Word} {effect : State → Result}

theorem firstAccess_memRead {k : Word → Result} (hexec : exec i s = s.issue i effect)
    (heffect : effect s = s.orAbort (s.memRead z a) k) : FirstAccess i s .read z a true := fun hfree => by
  refine ⟨fun _ ha => exec_error hexec heffect (memRead_misaligned ((unaligned_iff ..).mp ha)) hfree,
    fun ha hmiss => exec_error hexec heffect ?_ hfree⟩
  rw [memRead_aligned (misaligned_of_not_unaligned (ha rfl)), load_miss z hmiss]

theorem firstAccess_memWrite {v : Word} {k : State → Result} (hexec : exec i s = s.issue i effect)
    (heffect : effect s = s.orAbort (s.memWrite z a v) k) : FirstAccess i s .write z a true := fun hfree => by
  refine ⟨fun _ ha => exec_error hexec heffect (memWrite_misaligned v ((unaligned_iff ..).mp ha)) hfree,
    fun ha hmiss => exec_error hexec heffect ?_ hfree⟩
  rw [memWrite_aligned v (misaligned_of_not_unaligned (ha rfl)), store_miss z v hmiss]

theorem firstAccess_unchecked {kind : AccessKind} {α : Type} {x : Except Abort α} {k : α → Result}
    (hexec : exec i s = s.issue i effect) (heffect : effect s = s.orAbort x k)
    (hx : s.translate kind a = none → x = .error .miss) : FirstAccess i s kind z a false := fun hfree =>
  ⟨fun h => absurd h Bool.false_ne_true, fun _ hmiss => exec_error hexec heffect (hx hmiss) hfree⟩

end

theorem returnFromTrap_miss {s : State} (h : s.translate .read (s.ssp + 4) = none) : s.returnFromTrap = .error .miss := by
  unfold State.returnFromTrap
  rw [load_miss .word h]

theorem firstAccess_of_access {i : Instr} {s : State} {k : AccessKind} {z : Size} {a : Word} {checked : Bool}
    (h : access s i = some (k, z, a, checked)) : FirstAccess i s k z a checked := by
  cases i
  case ldbInd | ldubInd | ldhInd | lduhInd | ldwInd | ldbInc | ldubInc | ldhInc | lduhInc | ldwInc =>
    cases h
    exact firstAccess_memRead (by rfl) (by rfl)
  case stbInd | sthInd | stwInd | stbInc | sthInc | stwInc =>
    cases h
    exact firstAccess_memWrite (by rfl) (by rfl)
  case ldbSp | ldubSp | ldhSp | lduhSp | ldwSp | ldbDp | ldubDp | ldhDp | lduhDp | ldwDp | btst | bclr | bset | bnot =>
    cases h
    exact firstAccess_unchecked (by rfl) (by rfl) (load_miss _)
  case stbSp | sthSp | stwSp | stbDp | sthDp | stwDp =>
    cases h
    exact firstAccess_unchecked (by rfl) (by rfl) (store_miss _ _)
  case push | callRel | callReg =>
    cases h
    exact firstAccess_unchecked (by rfl) (by rfl) (pushWord_miss _)
  case pop | ret =>
    cases h
    exact firstAccess_unchecked (by rfl) (by rfl) popWord_miss
  case reti =>
    cases h
    exact firstAccess_unchecked (by rfl) (by rfl) returnFromTrap_miss
  all_goals cases h

end Sys2Proof.Machine
end

section
/-! Second accesses, passes and parts that are not performed (44_mac.md R313, 47_pushpop.md R380, 60_exceptions.md R569). -/

namespace Sys2Proof.Machine
open Sys2Proof.Spec

/-! ## The second access of a bit operation and of `reti` -/

theorem rewriteByte_store_miss {s : State} {rb : Reg} (f : Word → Word) (hread : s.translate .read (s.reg rb + s.ext.immDisp) ≠ none)
    (hwrite : s.translate .write (s.reg rb + s.ext.immDisp) = none) : s.rewriteByte rb f = s.abort .miss := by
  obtain ⟨p, hp⟩ := Option.ne_none_iff_exists'.mp hread
  rw [State.rewriteByte, State.bitAddress, load_eq .byte hp, orAbort_ok, store_miss .byte _ hwrite]
  rfl

theorem bitOperation_store_miss {i : Instr} {s : State} {rb : Reg} {k : BitVec 3} (hi : i = .bclr rb k ∨ i = .bset rb k ∨ i = .bnot rb k)
    (hfree : s.Free i) (hread : s.translate .read (s.reg rb + s.ext.immDisp) ≠ none)
    (hwrite : s.translate .write (s.reg rb + s.ext.immDisp) = none) : exec i s = s.abort .miss := by
  obtain rfl | rfl | rfl := hi
  · exact exec_of_issue (effect := fun s => s.rewriteByte rb fun v => v &&& ~~~(bitMask k)) (by rfl)
      (rewriteByte_store_miss _ hread hwrite) hfree
  · exact exec_of_issue (effect := fun s => s.rewriteByte rb fun v => v ||| bitMask k) (by rfl)
      (rewriteByte_store_miss _ hread hwrite) hfree
  · exact exec_of_issue (effect := fun s => s.rewriteByte rb fun v => v ^^^ bitMask k) (by rfl)
      (rewriteByte_store_miss _ hread hwrite) hfree

theorem returnFromTrap_psr_miss {s : State} (hpc : s.translate .read (s.ssp + 4) ≠ none) (hpsr : s.translate .read s.ssp = none) :
    s.returnFromTrap = .error .miss := by
  obtain ⟨p, hp⟩ := Option.ne_none_iff_exists'.mp hpc
  unfold State.returnFromTrap
  rw [load_eq .word hp, load_miss .word hpsr]

/-! ## A pass of a repeated accumulation -/

/-- Whether and why a read at a cannot be performed. -/
def readFailure (s : State) (z : Size) (a : Word) : Option Bool :=
  if a.toNat % z.bytes.toNat ≠ 0 then some true
  else if s.translate .read a = none then some false
  else none

theorem macFailure_eq (s : State) (rs : Reg) (z1 z2 : Size) :
    macFailure s rs z1 z2 = (readFailure s z1 (s.reg (rs + 1))).or (readFailure s z2 (s.reg (rs + 2))) := by
  unfold macFailure
  dsimp only
  rw [← readFailure, ← readFailure]
  cases readFailure s z1 (s.reg (rs + 1)) <;> rfl

theorem readFailure_cases (s : State) (z : Size) (a : Word) :
    (∃ b, readFailure s z a = some b ∧ s.memRead z a = .error (failure b)) ∨
    (readFailure s z a = none ∧ ∃ v, s.memRead z a = .ok v) := by
  obtain ⟨ha, h⟩ | ⟨ha, hp, h⟩ | ⟨ha, p, hp, h⟩ := memRead_cases s z a
  · exact .inl ⟨true, if_pos ha, h⟩
  · exact .inl ⟨false, (if_neg ha).trans (if_pos hp), h⟩
  · exact .inr ⟨(if_neg ha).trans (if_neg (by rw [hp]; exact Option.some_ne_none p)), _, h⟩

theorem macPass_fails {s : State} {rs : Reg} {z1 z2 : Size} {misaligned : Bool} (h : macFailure s rs z1 z2 = some misaligned) :
    s.macPass rs z1 z2 = .error (failure misaligned) := by
  rw [macFailure_eq] at h
  obtain ⟨b, hb, h1⟩ | ⟨hnone, v, h1⟩ := readFailure_cases s z1 (s.reg (rs + 1))
  · rw [hb, Option.some_or] at h
    rw [macPass_first_fails h1, Option.some.inj h]
  · rw [hnone, Option.none_or] at h
    obtain ⟨b, hb, h2⟩ | ⟨hnone, w, h2⟩ := readFailure_cases s z2 (s.reg (rs + 2))
    · rw [macPass_second_fails h1 h2, Option.some.inj (hb.symm.trans h)]
    · rw [hnone] at h
      cases h

theorem mac_aborts {i : Instr} {s u : State} {rs : Reg} {z1 z2 : Size} {k : Nat} {misaligned : Bool} (hfree : s.Free i)
    (hform : macForm i = some (rs, z1, z2)) (hkept : CounterKept s rs) (hk : k < (s.reg rs).toNat) (hu : Undisturbed s k)
    (hdone : macSteps rs z1 z2 k s = some u) (hfail : macFailure u rs z1 z2 = some misaligned) :
    Aborts i s (waited u k) misaligned := by
  rw [macSteps_eq_after rs z1 z2 k 0] at hdone
  apply aborts_of_abort
  rw [exec_mac_eq_run (left := (s.reg rs).toNat - 1) hfree hform hkept (by omega)]
  exact (macParts_lawful rs z1 z2).run_fails hdone (by omega) hu (macPass_fails hfail)

/-! ## A part of a sequence -/

theorem sp_of_frame {s t : State} (h : t.frame = s.frame) (hssp : t.ssp = s.ssp) (husp : t.usp = s.usp) : t.sp = s.sp := by
  simp only [State.frame, Prod.mk.injEq] at h
  obtain ⟨-, -, -, psr, -⟩ := h
  unfold State.sp
  rw [psr, hssp, husp]

theorem sp_specialWord (s : State) (m : Nat) : (specialWord s m).2.sp = s.sp := by
  refine sp_of_frame (frame_specialWord s m) ?_ ?_ <;>
  · unfold specialWord
    split <;> rfl

theorem onePart_pushn_miss {r : Reg} {m : Nat} {s : State} (h : s.translate .write (s.sp - 4) = none) :
    onePart (.pushn r) m s = .error .miss := pushWord_miss _ h

theorem onePart_pushs_miss {r : SReg} {m : Nat} {s : State} (h : s.translate .write (s.sp - 4) = none) :
    onePart (.pushs r) m s = .error .miss := by
  refine pushWord_miss (s := (specialWord s m).2) _ ?_
  rw [sp_specialWord, translate_of_frame (frame_specialWord s m), h]

theorem onePart_pop_miss {i : Instr} (hi : ∃ r, i = .popn r ∨ i = .pops r) {m : Nat} {s : State}
    (h : s.translate .read s.sp = none) : onePart i m s = .error .miss := by
  obtain ⟨r, rfl | rfl⟩ := hi <;>
  · unfold onePart
    dsimp only
    rw [popWord_miss h]
    rfl

theorem markRc_prepared (i : Instr) (m k : Nat) (u : State) :
    State.markRc (BitVec.ofNat 4 m) (prepared i m (waited (u.setPm true) k)) = marked (waited (prepared i m u) k) m := by
  unfold prepared
  split
  case h_2 => rfl
  case h_1 =>
    have hframe := frame_specialWord u m
    simp only [State.frame, Prod.mk.injEq] at hframe
    obtain ⟨-, -, -, -, inputs, -⟩ := hframe
    rw [show waited (u.setPm true) k = u.tagged (u.inputs.drop k) true u.psr.rc from rfl, specialWord_tagged, ← inputs]
    rfl

/-- A sequence aborts in the part that fails, PM set and its number in RC. -/
theorem sequence_aborts {i : Instr} {s u : State} {n count k : Nat} (hfree : s.Free i) (hstart : MayStart i s)
    (h : Spec.sequence s i = (n, count)) (hk : k < count) (hu : Undisturbed s k) (hdone : partsDone i n k s = some u)
    (hfail : onePart i (partNumber i n k) u = .error .miss) :
    Aborts i s (marked (waited (prepared i (partNumber i n k) u) k) (partNumber i n k)) false := by
  have hpos := Nat.zero_lt_of_lt hk
  have hq := sequenceParts_lawful i n
  rw [partsDone_eq_after (isSequence_of_count h hpos)] at hdone
  have hmiss : onePart i (partNumber i n k) (u.tagged u.inputs true u.psr.rc) = .error .miss := by
    rw [onePart_tagged, hfail]
    rfl
  apply aborts_of_abort
  rw [exec_sequence hfree hstart h hpos]
  rw [hq.run_fails (k := k) (hq.after_setPm hdone true) (by omega) (undisturbed_congr hu rfl rfl)
    (e := .miss) (by rw [Nat.zero_add]; exact hmiss)]
  rw [Nat.zero_add]
  exact congrArg (fun t => t.abort .miss) (markRc_prepared ..)

/-! ## PSR or SP singly -/

theorem specialRead_state (s : State) (n : SReg) : (specialRead s n).2 = s ∨ (specialRead s n).2 = { s with free := s.free + 1 } := by
  unfold specialRead
  dsimp only
  split
  case h_1 => split <;> simp
  all_goals simp

theorem pushs_single_aborts {s : State} {n top : SReg} (htop : (if s.psr.pm then s.psr.rc else n) = top) (hfree : s.Free (.pushs n))
    (hsingle : top = 0 ∨ top = 1) (hwindow : 0 < s.macWindow → top = 1) (hmiss : s.translate .write (s.sp - 4) = none) :
    Aborts (.pushs n) s (specialRead s top).2 false := by
  have hmiss' : (specialRead s top).2.translate .write ((specialRead s top).2.sp - 4) = none := by
    obtain h | h := specialRead_state s top <;> rw [h]
    · exact hmiss
    · exact hmiss
  apply aborts_of_abort
  rw [exec_pushs_single hfree htop hsingle hwindow, pushWord_miss _ hmiss']
  rfl

theorem pops_single_aborts {s : State} {n : SReg} (hfree : s.Free (.pops n)) (hsingle : n = 0 ∨ n = 1) (hpm : s.psr.pm = false)
    (hmiss : s.translate .read s.sp = none) : Aborts (.pops n) s s false := by
  apply aborts_of_abort
  rw [exec_pops_single hfree hsingle hpm, popWord_miss hmiss]
  rfl

/-- Settles O27, case by case: the first access, a second one, a pass, a part. -/
theorem accessesNotPerformed : Obligations.AccessesNotPerformed := by
  refine ⟨fun i s k z a hfree h ha => ?_, fun i s k z a checked hfree h ha hmiss => ?_,
    fun i s rb k hi hfree hread hwrite => ?_, fun s hfree hpc hpsr => ?_, ?_, ?_, fun s n => ⟨?_, ?_⟩⟩
  · exact aborts_of_abort ((firstAccess_of_access h hfree).1 rfl ha)
  · exact aborts_of_abort ((firstAccess_of_access h hfree).2 ha hmiss)
  · exact aborts_of_abort (bitOperation_store_miss hi hfree hread hwrite)
  · exact aborts_of_abort (exec_error (by rfl) (by rfl) (returnFromTrap_psr_miss hpc hpsr) hfree)
  · intro i s u rs z1 z2 k misaligned
    exact mac_aborts
  · intro i s u n count k hfree hstart h hk hu hdone
    refine ⟨?_, ?_, fun hi hmiss => ?_⟩
    · rintro ⟨r, rfl⟩ hmiss
      exact sequence_aborts hfree hstart h hk hu hdone (onePart_pushn_miss hmiss)
    · rintro ⟨r, rfl⟩ hmiss
      exact sequence_aborts hfree hstart h hk hu hdone (onePart_pushs_miss hmiss)
    · have habort := sequence_aborts hfree hstart h hk hu hdone (onePart_pop_miss hi hmiss)
      obtain ⟨r, rfl | rfl⟩ := hi
      · exact habort
      · exact habort
  · exact fun hfree hsingle hwindow hmiss => pushs_single_aborts rfl hfree hsingle hwindow hmiss
  · exact fun hfree hsingle hpm hmiss => pops_single_aborts hfree hsingle hpm hmiss

end Sys2Proof.Machine
end
